-- ==== Sys2Proof/Word.lean ====
section
/-! DEFINITION. The value types of the block (00_scope.md R9, R11): unsigned bit vectors, bit 0 least significant. -/

namespace Sys2Proof

/-- A configuration byte, `CFG_W` = 8 (R9). -/
abbrev Byte := BitVec 8

/-- A 64-bit value: a target address, or the address value of an entry, `ADDR_W` = 64 (R9, R32). -/
abbrev Addr := BitVec 64

/-- `MAX` = 2^64 - 1, the all-ones 64-bit value (R11). -/
abbrev MAX : Addr := 0xFFFFFFFFFFFFFFFF#64

end Sys2Proof
end

