-- ==== Sys2Proof/Syntax.lean ====
section
/-! DEFINITION. The operations of the block (30_encoding.md R53), one constructor of `Instr` per row of
spec/opcode_table.json, and the enumerations their operands range over (10_state.md R24, R21). -/

namespace Sys2Proof

/-- The privilege mode named by a request (10_state.md R24, 60_exceptions.md R133). -/
inductive Mode where
  | user
  | supervisor
  | machine
deriving DecidableEq, Repr

/-- The operation named by a request (10_state.md R24): the kind of the access judged, performed by nobody here (R31). -/
inductive Operation where
  | read
  | write
  | execute
deriving DecidableEq, Repr

/-- The address mode, field A of a configuration byte (30_encoding.md R46). -/
inductive AMode where
  | off
  | tor
  | na4
  | napot
deriving DecidableEq, Repr

/-- The five decoded fields of a configuration byte (40_config_decoder.md R58, R62). -/
structure Config where
  r : Bool
  w : Bool
  x : Bool
  a : AMode
  l : Bool
deriving DecidableEq, Repr

/-- The fields of a CFG8 byte other than A (30_encoding.md R43): the lock bit, the two ignored bits 6:5 (R44)
and the permission bits. A RNG operation carries them and reads none of them (41_range_resolver.md R65). -/
structure CfgRest where
  l  : Bool
  ii : BitVec 2
  x  : Bool
  w  : Bool
  r  : Bool
deriving DecidableEq, Repr

/-- The ports that have reserved codes (30_encoding.md R56). -/
inductive Port where
  | reqMode
  | reqOp
  | nEntries
deriving DecidableEq, Repr

/-- The ten operations (30_encoding.md R53). -/
inductive Instr where
  /-- RNG.OFF (R67): no operands. -/
  | rngOff (f : CfgRest)
  /-- RNG.TOR (R68): this entry's address value and its predecessor's. -/
  | rngTor (f : CfgRest) (addr prev : Addr)
  /-- RNG.NA4 (R70): this entry's address value. -/
  | rngNa4 (f : CfgRest) (addr : Addr)
  /-- RNG.NAPOT (R72): this entry's address value. -/
  | rngNapot (f : CfgRest) (addr : Addr)
  /-- CHECK.R (R98): the request's mode and target address. -/
  | checkR (mode : Mode) (a : Addr)
  /-- CHECK.W (R98). -/
  | checkW (mode : Mode) (a : Addr)
  /-- CHECK.X (R98). -/
  | checkX (mode : Mode) (a : Addr)
  /-- CFGDEC (R58): one byte. -/
  | cfgdec (b : Byte)
  /-- MATCH (R82): the target address; the table is read from the ports. -/
  | matchScan (a : Addr)
  /-- PERM (R91): the Config of the matched entry, the request's mode and operation. -/
  | perm (c : Config) (mode : Mode) (op : Operation)
deriving DecidableEq, Repr

end Sys2Proof
end

