-- ==== Sys2Proof/Machine/State.lean ====
section
/-! DEFINITION. The machine's state as plain data: the block's ports (10_state.md R26, R27) and the model's own fields.
The block itself has no state, no register, no memory and no reset value (R15 to R19, R29 to R31, R141). Its inputs stand
in State because the step's form is state to state (log 1); its three outputs are no fields but a function of the inputs,
`State.outputs` (R27, R142); State.reset's values are the model's (log 4). -/

namespace Sys2Proof.Machine

/-- AccessResult (10_state.md R25). -/
inductive AccessResult where
  | allowed
  | denied
deriving DecidableEq, Repr

/-- PmpEntry (10_state.md R21, R22): a configuration byte and an opaque 64-bit address value. -/
structure PmpEntry where
  cfg  : Byte
  addr : Addr
deriving DecidableEq, Repr

/-- A half-open byte range (41_range_resolver.md R66, D9): `start` inclusive in 64 bits, `stop` exclusive in 65, since
it may be 2^64. -/
structure Range where
  start : Addr
  stop  : BitVec 65
deriving DecidableEq, Repr

/-- The block's three outputs (R27, 30_encoding.md R51). -/
structure Outputs where
  /-- `allowed`: true for Allowed. -/
  allowed : Bool
  /-- `matched`: true when the matcher returned an entry. -/
  matched : Bool
  /-- `match_idx`: that entry's index. -/
  matchIdx : BitVec 6
deriving DecidableEq, Repr

/-- Which operation the next step evaluates. The model's own, no port of the block (log 2). -/
inductive Stage where
  | check
  | rng
  | cfgdec
  | matchScan
  | perm
deriving DecidableEq, Repr

/-- The input ports of the block and the model's own fields. -/
structure State where
  /-- `cfg_i`, `addr_i`, 0 ≤ i ≤ 63 (R26). -/
  slots : Vector PmpEntry 64
  /-- `n_entries` (R26). -/
  nEntries : BitVec 7
  /-- `req_addr` (R27). -/
  reqAddr : Addr
  /-- `req_mode` (R27, coded as R49). -/
  reqMode : BitVec 2
  /-- `req_op` (R27, coded as R50). -/
  reqOp : BitVec 2
  /-- The operation presented. The model's own (log 2). -/
  sel : Stage
  /-- The slot a stage operation is presented to. The model's own (log 2). -/
  slot : Fin 64
  /-- The result the last evaluation of CHECK delivered (44_top_level_check.md R105), its three parts together. The
  model's own (log 1, log 3): the block's ports show `State.outputs`. -/
  delivered : Outputs
  /-- The index MATCH answered, none on "no match" (42_entry_matcher.md R81). The model's own (log 3). -/
  found : Option Nat
  /-- What CFGDEC answered (40_config_decoder.md R58). The model's own (log 3). -/
  decoded : Config
  /-- What RNG answered; none where no range is defined (41_range_resolver.md R67). The model's own (log 3). -/
  range : Option Range
  /-- What PERM answered (43_permission_evaluator.md R91). The model's own (log 3). -/
  verdict : AccessResult
deriving DecidableEq, Repr

/-- The block raises no exception (60_exceptions.md R125, R139): there is no fault. -/
inductive Fault where
deriving DecidableEq, Repr

/-- Why a step gives no next state. -/
inductive Refusal where
  /-- An instruction that has no meaning yet, by its mnemonic. Raised by exec's refused arms alone, of which there is
  none left. Safe. -/
  | notModelled (mnemonic : String)
  /-- A reserved code on a port (30_encoding.md R56, 60_exceptions.md R139), for which the spec specifies no output and
  asks a model to refuse. Raised by the step for a reserved `req_mode` or `req_op`, and by MATCH and CHECK for a
  reserved `n_entries`. Safe. -/
  | reservedPortCode (port : Port)
deriving DecidableEq, Repr

/-- The machine before anything is presented. The spec gives no reset value and says that none may be assumed
(10_state.md R29, 70_reset_and_hazards.md R143): every input is 0 and the model's own fields are as named, a
DESIGN CHOICE (log 4); `delivered` is what the block's outputs are for those inputs. -/
def State.reset : State where
  slots := Vector.replicate 64 { cfg := 0#8, addr := 0#64 }
  nEntries := 0#7
  reqAddr := 0#64
  reqMode := 0#2
  reqOp := 0#2
  sel := .check
  slot := 0
  delivered := { allowed := false, matched := false, matchIdx := 0#6 }
  found := none
  decoded := { r := false, w := false, x := false, a := .off, l := false }
  range := none
  verdict := .denied

end Sys2Proof.Machine
end

