-- ==== Sys2Proof/Machine/Flags.lean ====
section
/-! DEFINITION. The block has no condition codes and no status flags (10_state.md R30). What it computes as bits are its
three outputs (30_encoding.md R51). -/

namespace Sys2Proof.Machine

/-- Output `allowed` (R51): 1 for Allowed, 0 for Denied. -/
def allowedBit : AccessResult → Bool
  | .allowed => true
  | .denied => false

/-- Output `matched` (R51, 42_entry_matcher.md R81): 1 when the matcher returned an entry. -/
def matchedBit (m : Option Nat) : Bool := m.isSome

/-- Output `match_idx` (R51, R81): the entry's index, and 0 on "no match". -/
def matchIdxBits : Option Nat → BitVec 6
  | some i => BitVec.ofNat 6 i
  | none => 0#6

end Sys2Proof.Machine
end

