-- ==== Sys2Proof/WellFormed.lean ====
section
/-! DEFINITION. Well-formedness. Every value of `Instr` is well formed: its modes and operations are three-valued
enumerations and its addresses, bytes and Configs have no illegal value (30_encoding.md R45, R56, 10_state.md R22,
R24). What CAN be ill formed is a code on a port (R56) and the length of a table (10_state.md R20); the checks of
those are here, once, and the decoder and the meanings use them. -/

namespace Sys2Proof

/-- `MAX_ENTRIES` = 64 (00_scope.md R9). -/
abbrev maxEntries : Nat := 64

/-- `req_mode` = 0b10 is reserved (30_encoding.md R49, R56). -/
def modeCodeOk (c : BitVec 2) : Bool := c != 2#2

/-- `req_op` = 0b11 is reserved (30_encoding.md R50, R56). -/
def opCodeOk (c : BitVec 2) : Bool := c != 3#2

/-- `n_entries` from 65 to 127 is reserved (30_encoding.md R52, R56). -/
def countOk (n : BitVec 7) : Bool := decide (n.toNat ≤ maxEntries)

/-- A table has at most 64 entries (10_state.md R20). -/
def tableOk {α : Type} (T : List α) : Bool := decide (T.length ≤ maxEntries)

/-- Every instruction is well formed: no constructor has an operand with an illegal value. -/
def Instr.wf : Instr → Bool
  | .rngOff _ => true
  | .rngTor _ _ _ => true
  | .rngNa4 _ _ => true
  | .rngNapot _ _ => true
  | .checkR _ _ => true
  | .checkW _ _ => true
  | .checkX _ _ => true
  | .cfgdec _ => true
  | .matchScan _ => true
  | .perm _ _ _ => true

end Sys2Proof
end

