-- ==== Sys2Proof/Decode.lean ====
section
/-! DEFINITION. Encodings (30_encoding.md): the configuration byte CFG8 (R43, R46), the request word REQ4 (R49, R50, R54),
the decoder from input ports to operations, which is total and refuses a reserved code by the name of its port (R56), and
the encoder back. `cfgdec` is the Config Decoder itself (40_config_decoder.md R58). -/

namespace Sys2Proof

/-! ### CFG8 -/

/-- Field A from its two bits (R46): all four values are defined. -/
def decodeAMode (v : BitVec 2) : AMode :=
  if v = 0#2 then .off else if v = 1#2 then .tor else if v = 2#2 then .na4 else .napot

/-- The two bits of field A (R46). -/
def amodeCode : AMode → BitVec 2
  | .off => 0#2
  | .tor => 1#2
  | .na4 => 2#2
  | .napot => 3#2

/-- CFGDEC (R58): bits 0, 1, 2, 4:3 and 7; bits 6 and 5 do not reach the output (R44). -/
def cfgdec (b : Byte) : Config where
  r := b.getLsbD 0
  w := b.getLsbD 1
  x := b.getLsbD 2
  a := decodeAMode (b.extractLsb' 3 2)
  l := b.getLsbD 7

/-- The fields of a CFG8 byte other than A, pattern `LiiAAXWR` (R43). -/
def decodeCfgRest (b : Byte) : CfgRest where
  l := b.getLsbD 7
  ii := b.extractLsb' 5 2
  x := b.getLsbD 2
  w := b.getLsbD 1
  r := b.getLsbD 0

/-- The byte `LiiAAXWR` (R43). -/
def encodeCfg8 (a : AMode) (f : CfgRest) : Byte :=
  BitVec.ofBool f.l ++ f.ii ++ amodeCode a ++ BitVec.ofBool f.x ++ BitVec.ofBool f.w ++ BitVec.ofBool f.r

/-! ### REQ4 -/

/-- `req_mode` (R49): 00 User, 01 Supervisor, 11 Machine; 10 is reserved (R56). -/
def decodeMode (c : BitVec 2) : Option Mode :=
  if c = 0#2 then some .user else if c = 1#2 then some .supervisor else if c = 3#2 then some .machine else none

/-- The code of a mode (R49). -/
def modeCode : Mode → BitVec 2
  | .user => 0#2
  | .supervisor => 1#2
  | .machine => 3#2

/-- `req_op` (R50): 00 Read, 01 Write, 10 Execute; 11 is reserved (R56). -/
def decodeOp (c : BitVec 2) : Option Operation :=
  if c = 0#2 then some .read else if c = 1#2 then some .write else if c = 2#2 then some .execute else none

/-- The code of an operation (R50): the position in CFG8 of the permission bit it looks up. -/
def opCode : Operation → BitVec 2
  | .read => 0#2
  | .write => 1#2
  | .execute => 2#2

/-- REQ4 = `{req_mode, req_op}` (R42, R54). -/
def req4 (mode op : BitVec 2) : BitVec 4 := mode ++ op

/-- The mode and operation of a REQ4 word, or the port whose code is reserved (R56). Where both are reserved the mode's
port is named. DESIGN CHOICE (log 8). -/
def decodeReq4 (q : BitVec 4) : Except Port (Mode × Operation) :=
  match decodeMode (q.extractLsb' 2 2) with
  | none => .error .reqMode
  | some m =>
    match decodeOp (q.extractLsb' 0 2) with
    | none => .error .reqOp
    | some o => .ok (m, o)

/-! ### The decoder and the encoder -/

/-- What the inputs of an operation present: its selecting word and its operands, each a port value. The block has
no instruction stream and no byte order (R33, R42), so the words are port values and not bytes. DESIGN CHOICE (log 7). -/
inductive InputWord where
  /-- An entry's CFG8 byte with its ADDR64 value and its predecessor's (R42, R47). -/
  | cfg8 (b : Byte) (addr prev : Addr)
  /-- A REQ4 word with the 64-bit target address that accompanies it (R42). -/
  | req4 (q : BitVec 4) (a : Addr)
  /-- The byte presented to the Config Decoder (R58). -/
  | cfgdec (b : Byte)
  /-- The address presented to the Entry Matcher (R82). -/
  | matchScan (a : Addr)
  /-- The matched entry's CFG8 byte and the request presented to the Permission Evaluator (R91). -/
  | perm (b : Byte) (q : BitVec 4)
deriving DecidableEq, Repr

/-- The RNG operation that field A of a byte selects (R46, R54 (a)). -/
def decodeRng (b : Byte) (addr prev : Addr) : Instr :=
  match decodeAMode (b.extractLsb' 3 2) with
  | .off => .rngOff (decodeCfgRest b)
  | .tor => .rngTor (decodeCfgRest b) addr prev
  | .na4 => .rngNa4 (decodeCfgRest b) addr
  | .napot => .rngNapot (decodeCfgRest b) addr

/-- The CHECK form that `req_op` selects (R54 (b)). -/
def checkInstr (m : Mode) (a : Addr) : Operation → Instr
  | .read => .checkR m a
  | .write => .checkW m a
  | .execute => .checkX m a

/-- The decoder: total; the only refusal is a reserved code, by the name of its port (R56). -/
def decode : InputWord → Except Port Instr
  | .cfg8 b addr prev => .ok (decodeRng b addr prev)
  | .req4 q a =>
    match decodeReq4 q with
    | .error p => .error p
    | .ok (m, o) => .ok (checkInstr m a o)
  | .cfgdec b => .ok (.cfgdec b)
  | .matchScan a => .ok (.matchScan a)
  | .perm b q =>
    match decodeReq4 q with
    | .error p => .error p
    | .ok (m, o) => .ok (.perm (cfgdec b) m o)

/-- A byte that decodes to a given Config, with the ignored bits zero (R43, R61). -/
def configByte (c : Config) : Byte :=
  encodeCfg8 c.a { l := c.l, ii := 0#2, x := c.x, w := c.w, r := c.r }

/-- The encoder. An operand the operation does not have is presented as 0. -/
def encode : Instr → InputWord
  | .rngOff f => .cfg8 (encodeCfg8 .off f) 0#64 0#64
  | .rngTor f addr prev => .cfg8 (encodeCfg8 .tor f) addr prev
  | .rngNa4 f addr => .cfg8 (encodeCfg8 .na4 f) addr 0#64
  | .rngNapot f addr => .cfg8 (encodeCfg8 .napot f) addr 0#64
  | .checkR m a => .req4 (req4 (modeCode m) (opCode .read)) a
  | .checkW m a => .req4 (req4 (modeCode m) (opCode .write)) a
  | .checkX m a => .req4 (req4 (modeCode m) (opCode .execute)) a
  | .cfgdec b => .cfgdec b
  | .matchScan a => .matchScan a
  | .perm c m o => .perm (configByte c) (req4 (modeCode m) (opCode o))

/-! ### The opcode table's words -/

/-- The input word a word of spec/opcode_table.json stands for. The table has two formats, CFG8 of 8 bits and REQ4 of
4 bits, which the hardware tells apart by the port they arrive on; a word alone does not say which it is of, and the
nine legal REQ4 words, written in a whole byte, are also configuration bytes. A word in a whole byte is read as REQ4
where it is a legal REQ4 word and as CFG8 otherwise; the bits above the word are its address operand; a word of no bits
selects nothing (rows CFGDEC, MATCH, PERM, R54). DESIGN CHOICE (log 6). The step never uses this reading. -/
def tableWord (nbits w : Nat) : Option InputWord :=
  if nbits = 0 then none
  else
    match decodeReq4 (BitVec.ofNat 4 w), decide (w < 16), decide (nbits ≤ 4) with
    | .ok _, true, _ => some (.req4 (BitVec.ofNat 4 w) 0#64)
    | _, _, true => none
    | _, _, false => some (.cfg8 (BitVec.ofNat 8 w) (BitVec.ofNat 64 (w >>> 8)) 0#64)

/-- The instruction the decoder reads from a word of spec/opcode_table.json. -/
def decodeTableWord (nbits w : Nat) : Option Instr :=
  match tableWord nbits w with
  | none => none
  | some word =>
    match decode word with
    | .error _ => none
    | .ok i => some i

end Sys2Proof
end

