-- ==== Sys2Proof/Machine/Operands.lean ====
section
/-! DEFINITION. Where each operation's operands come from: the table as the block sees it, an entry's predecessor value,
the permission bit an operation selects, and the input word the ports present to the next step. -/

namespace Sys2Proof.Machine

/-- PmpTable (10_state.md R20): entry 0 first. -/
abbrev Table := List PmpEntry

/-- The abstract table the ports present (R26): slots 0 to n - 1; the slots from n on are not part of it. -/
def State.table (s : State) : Table := s.slots.toList.take s.nEntries.toNat

/-- PREV(T, i) (41_range_resolver.md R69, R80): 0 for entry 0, else the raw address value of entry i - 1, whatever that
entry's own mode. -/
def prevAddr (T : Table) : Nat → Addr
  | 0 => 0#64
  | i + 1 => match T[i]? with
    | some e => e.addr
    | none => 0#64

/-- PERMBIT (43_permission_evaluator.md R92): exactly one bit is consulted. -/
def permBit (c : Config) : Operation → Bool
  | .read => c.r
  | .write => c.w
  | .execute => c.x

/-- The entry in the slot a stage operation is presented to. -/
def State.slotEntry (s : State) : PmpEntry := s.slots.get s.slot

/-- Its predecessor value (R69), over the 64 slots. -/
def State.slotPrev (s : State) : Addr := prevAddr s.slots.toList s.slot.val

/-- What the ports present to the next step: the request to CHECK and MATCH (R27), the selected slot's entry to the
decoder and the resolver (R63, R65), that entry's byte and the request to the evaluator (R91). -/
def State.fetch (s : State) : InputWord :=
  match s.sel with
  | .check => .req4 (req4 s.reqMode s.reqOp) s.reqAddr
  | .rng => .cfg8 s.slotEntry.cfg s.slotEntry.addr s.slotPrev
  | .cfgdec => .cfgdec s.slotEntry.cfg
  | .matchScan => .matchScan s.reqAddr
  | .perm => .perm s.slotEntry.cfg (req4 s.reqMode s.reqOp)

/-- Present an entry to the resolver of slot 0, whose predecessor value is 0 (R69). -/
def State.presentEntry (s : State) (b : Byte) (addr : Addr) : State :=
  { s with sel := .rng, slot := 0, slots := s.slots.set 0 { cfg := b, addr := addr } }

/-- Present a REQ4 word and its address to the request ports (R27). -/
def State.presentRequest (s : State) (q : BitVec 4) (a : Addr) : State :=
  { s with sel := .check, reqMode := q.extractLsb' 2 2, reqOp := q.extractLsb' 0 2, reqAddr := a }

/-- Present an input word on the ports. -/
def State.present (s : State) : InputWord → State
  | .cfg8 b addr _ => s.presentEntry b addr
  | .req4 q a => s.presentRequest q a
  | .cfgdec b => { s with sel := .cfgdec, slot := 0, slots := s.slots.set 0 { cfg := b, addr := 0#64 } }
  | .matchScan a => { s with sel := .matchScan, reqAddr := a }
  | .perm b q =>
    { s with sel := .perm, slot := 0, slots := s.slots.set 0 { cfg := b, addr := 0#64 },
             reqMode := q.extractLsb' 2 2, reqOp := q.extractLsb' 0 2 }

/-- The environment presents a table and a request to the whole block (45_loader_and_cli.md R123): `n_entries` = len(T),
slot i < len(T) carries T[i], the other slots keep what they carry (10_state.md R28: they may carry anything). -/
def State.drive (s : State) (T : Table) (a : Addr) (m : Mode) (o : Operation) : State :=
  { s with
    slots := Vector.ofFn fun i : Fin 64 => (T[i.val]?).getD (s.slots.get i)
    nEntries := BitVec.ofNat 7 T.length
    reqAddr := a
    reqMode := modeCode m
    reqOp := opCode o
    sel := .check }

end Sys2Proof.Machine
end

