-- ==== Sys2Proof/Machine/Ops.lean ====
section
/-! DEFINITION. The shared operations of the meanings: how an answer is delivered, and how the table ports are read. The
block has no memory operation (20_memory.md R31), no register file (10_state.md R15), and neither takes nor returns from
an exception (60_exceptions.md R125, R131), so there is none of those here. Every operation leaves every input as it is
(10_state.md R18, R19). -/

namespace Sys2Proof.Machine

/-- CFGDEC's answer. -/
def State.withDecoded (s : State) (c : Config) : State := { s with decoded := c }

/-- The resolver's answer. -/
def State.withRange (s : State) (r : Option Range) : State := { s with range := r }

/-- The evaluator's answer. -/
def State.withVerdict (s : State) (r : AccessResult) : State := { s with verdict := r }

/-- The matcher's answer. -/
def State.withFound (s : State) (m : Option Nat) : State := { s with found := m }

/-- The block's result, delivered (44_top_level_check.md R105). -/
def State.withDelivered (s : State) (o : Outputs) : State := { s with delivered := o }

/-- Read the table from its ports; a reserved `n_entries` is refused (30_encoding.md R56). -/
def withTable (s : State) (k : Table → State) : Host.Outcome State Fault Refusal :=
  if countOk s.nEntries then .next (k s.table) else .refused (.reservedPortCode .nEntries)

end Sys2Proof.Machine
end

