-- ==== Sys2Proof/Machine/ConfigDecoder.lean ====
section
/-! DEFINITION. The Config Decoder (40_config_decoder.md). -/

namespace Sys2Proof.Machine

/-- CFGDEC (R58, R59): total, no error; the function itself is `Sys2Proof.cfgdec`. -/
def execCfgdec (b : Byte) (s : State) : Host.Outcome State Fault Refusal :=
  .next (s.withDecoded (cfgdec b))

end Sys2Proof.Machine
end

