-- ==== Sys2Proof/Machine/RangeResolver.lean ====
section
/-! DEFINITION. The Range Resolver (41_range_resolver.md): RNG.OFF, RNG.TOR, RNG.NA4, RNG.NAPOT. -/

namespace Sys2Proof.Machine

/-- CONTAINS (R66, R80): start ≤ a < end, unsigned (R77 (f)). -/
def Range.contains (r : Range) (a : Addr) : Bool :=
  decide (r.start.toNat ≤ a.toNat) && decide (a.toNat < r.stop.toNat)

/-- RNG_TOR (R68): both bounds as stored, no arithmetic. -/
def rngTor (addr prev : Addr) : Range where
  start := prev
  stop := addr.setWidth 65

/-- The base of an NA4 range (R70): the two low bits cleared. -/
def na4Base (addr : Addr) : Addr := addr &&& ~~~3#64

/-- RNG_NA4 (R70, R71): the end is an integer sum, so it may be 2^64. The sum is the spec's own decision (log 10). -/
def rngNa4 (addr : Addr) : Range where
  start := na4Base addr
  stop := (na4Base addr).setWidth 65 + 4#65

/-- The number of consecutive 1 bits starting at bit 0 (00_scope.md R12). -/
def tz1 (v : Addr) : Nat := ((List.range 64).takeWhile fun i => v.getLsbD i).length

/-- The 64-bit value whose low t bits are 1 (00_scope.md R12). -/
def lowmask (t : Nat) : Addr := BitVec.ofNat 64 (2 ^ t - 1)

/-- The mask of RNG_NAPOT (R72, 90_conflicts.md C1): the low-order run of 1 bits of `addr | (addr - 1)`, the subtraction
wrapping (R77 (a)). On even non-zero values the spec's evidence is thin (log 9). -/
def napotMask (addr : Addr) : Addr := lowmask (tz1 (addr ||| (addr - 1#64)))

/-- The NAPOT range of a given mask (R72): base, and a size that wraps to 0 when the mask is `MAX` (R77 (b)); the end is
an integer sum. -/
def rangeOfMask (addr mask : Addr) : Range where
  start := addr &&& ~~~mask
  stop := (addr &&& ~~~mask).setWidth 65 + (mask + 1#64).setWidth 65

/-- RNG_NAPOT (R72). -/
def rngNapot (addr : Addr) : Range := rangeOfMask addr (napotMask addr)

/-- RESOLVE (R80); Off is not invoked and has no range (R67). -/
def resolve (a : AMode) (addr prev : Addr) : Option Range :=
  match a with
  | .off => none
  | .tor => some (rngTor addr prev)
  | .na4 => some (rngNa4 addr)
  | .napot => some (rngNapot addr)

/-- RNG.OFF (R67): the resolver is not invoked; no range. -/
def execRngOff (_f : CfgRest) (s : State) : Host.Outcome State Fault Refusal :=
  .next (s.withRange none)

/-- RNG.TOR (R68). -/
def execRngTor (_f : CfgRest) (addr prev : Addr) (s : State) : Host.Outcome State Fault Refusal :=
  .next (s.withRange (some (rngTor addr prev)))

/-- RNG.NA4 (R70, R71). -/
def execRngNa4 (_f : CfgRest) (addr : Addr) (s : State) : Host.Outcome State Fault Refusal :=
  .next (s.withRange (some (rngNa4 addr)))

/-- RNG.NAPOT (R72). -/
def execRngNapot (_f : CfgRest) (addr : Addr) (s : State) : Host.Outcome State Fault Refusal :=
  .next (s.withRange (some (rngNapot addr)))

end Sys2Proof.Machine
end

