-- ==== Sys2Proof/Machine/EntryMatcher.lean ====
section
/-! DEFINITION. The Entry Matcher (42_entry_matcher.md): MATCH. -/

namespace Sys2Proof.Machine

/-- Whether an entry with predecessor value `prev` matches `a` under a resolver: its mode is not Off and its range
contains `a` (R82, `hit`). -/
def entryHitWith (res : AMode → Addr → Addr → Option Range) (e : PmpEntry) (prev a : Addr) : Bool :=
  match res (cfgdec e.cfg).a e.addr prev with
  | none => false
  | some r => r.contains a

/-- The scan (R82), by recursion on the entries carrying the predecessor value and the index (R88): index-ascending,
first match wins. The entry found is answered with its index. -/
def scanFrom (res : AMode → Addr → Addr → Option Range) (a : Addr) : Addr → Nat → Table → Option (Nat × PmpEntry)
  | _, _, [] => none
  | prev, i, e :: T => if entryHitWith res e prev a then some (i, e) else scanFrom res a e.addr (i + 1) T

/-- The scan of a whole table with the block's resolver: PREV of entry 0 is 0 (R69). -/
def scan (T : Table) (a : Addr) : Option (Nat × PmpEntry) := scanFrom resolve a 0#64 0 T

/-- MATCH(T, a) (R81, R82). -/
def matchEntry (T : Table) (a : Addr) : Option Nat := (scan T a).map Prod.fst

/-- `hit(i)` of R82, by index: entry i exists, is not Off, and its range contains `a`. -/
def hit (T : Table) (i : Nat) (a : Addr) : Bool :=
  match T[i]? with
  | none => false
  | some e => entryHitWith resolve e (prevAddr T i) a

/-- MATCH (R81, R82): `Some(i)` or `None`. What the ports `matched` and `match_idx` show of it for the request
presented is in `State.outputs`. -/
def execMatchScan (a : Addr) (s : State) : Host.Outcome State Fault Refusal :=
  withTable s fun T => s.withFound (matchEntry T a)

end Sys2Proof.Machine
end

