-- ==== Sys2Proof/Machine/PermissionEvaluator.lean ====
section
/-! DEFINITION. The Permission Evaluator (43_permission_evaluator.md): PERM. -/

namespace Sys2Proof.Machine

/-- PERM (R91): rule 1 the bypass, rule 2 the bit lookup. -/
def perm (c : Config) (m : Mode) (o : Operation) : AccessResult :=
  if m = .machine ∧ c.l = false then .allowed
  else if permBit c o then .allowed else .denied

/-- PERM (R91, R96): total. -/
def execPerm (c : Config) (m : Mode) (o : Operation) (s : State) : Host.Outcome State Fault Refusal :=
  .next (s.withVerdict (perm c m o))

end Sys2Proof.Machine
end

