-- ==== Sys2Proof/Machine/TopLevelCheck.lean ====
section
/-! DEFINITION. The Top-Level Decision (44_top_level_check.md): CHECK.R, CHECK.W, CHECK.X. -/

namespace Sys2Proof.Machine

/-- The default policy (R99): Machine open, Supervisor and User closed. -/
def defaultPolicy : Mode → AccessResult
  | .machine => .allowed
  | .supervisor => .denied
  | .user => .denied

/-- The decision on what the matcher answered (R98). -/
def decideOn (m : Option (Nat × PmpEntry)) (mode : Mode) (o : Operation) : AccessResult :=
  match m with
  | none => defaultPolicy mode
  | some (_, e) => perm (cfgdec e.cfg) mode o

/-- CHECK(T, a, mode, op) (R98). -/
def check (T : Table) (a : Addr) (mode : Mode) (o : Operation) : AccessResult :=
  decideOn (scan T a) mode o

/-- One evaluation: the three outputs for a table and a request (R98, 10_state.md R27, 30_encoding.md R51). -/
def evaluate (T : Table) (a : Addr) (mode : Mode) (o : Operation) : Outputs where
  allowed := allowedBit (check T a mode o)
  matched := matchedBit (matchEntry T a)
  matchIdx := matchIdxBits (matchEntry T a)

/-- The block's output ports: at all times a combinational function of its input ports, of nothing else in the state
(10_state.md R27, 70_reset_and_hazards.md R142). No output is specified where a port carries a reserved code
(30_encoding.md R56): that port is named (log 8). -/
def State.outputs (s : State) : Except Port Outputs :=
  match decodeReq4 (req4 s.reqMode s.reqOp) with
  | .error p => .error p
  | .ok (m, o) => if countOk s.nEntries then .ok (evaluate s.table s.reqAddr m o) else .error .nEntries

/-- One evaluation over the table ports, its result delivered (R98, R105). -/
def evalCheck (o : Operation) (mode : Mode) (a : Addr) (s : State) : Host.Outcome State Fault Refusal :=
  withTable s fun T => s.withDelivered (evaluate T a mode o)

/-- CHECK.R (R98). -/
def execCheckR (mode : Mode) (a : Addr) (s : State) : Host.Outcome State Fault Refusal :=
  evalCheck .read mode a s

/-- CHECK.W (R98). -/
def execCheckW (mode : Mode) (a : Addr) (s : State) : Host.Outcome State Fault Refusal :=
  evalCheck .write mode a s

/-- CHECK.X (R98). -/
def execCheckX (mode : Mode) (a : Addr) (s : State) : Host.Outcome State Fault Refusal :=
  evalCheck .execute mode a s

end Sys2Proof.Machine
end

