-- ==== Sys2Proof/Machine/Dispatch.lean ====
section
/-! DEFINITION. exec: one arm per constructor of Instr, in the order of Syntax.lean. -/

namespace Sys2Proof.Machine

def exec (i : Instr) (s : State) : Host.Outcome State Fault Refusal :=
  match i with
  | .rngOff f => Sys2Proof.Machine.execRngOff f s
  | .rngTor f addr prev => Sys2Proof.Machine.execRngTor f addr prev s
  | .rngNa4 f addr => Sys2Proof.Machine.execRngNa4 f addr s
  | .rngNapot f addr => Sys2Proof.Machine.execRngNapot f addr s
  | .checkR mode a => Sys2Proof.Machine.execCheckR mode a s
  | .checkW mode a => Sys2Proof.Machine.execCheckW mode a s
  | .checkX mode a => Sys2Proof.Machine.execCheckX mode a s
  | .cfgdec b => Sys2Proof.Machine.execCfgdec b s
  | .matchScan a => Sys2Proof.Machine.execMatchScan a s
  | .perm c mode op => Sys2Proof.Machine.execPerm c mode op s

end Sys2Proof.Machine
end

