-- ==== Sys2Proof/Machine/Step.lean ====
section
/-! DEFINITION. One step is one evaluation (44_top_level_check.md R105): the ports present an input word, it is decoded,
and the operation it stands for answers. A reserved code on a request port is refused (30_encoding.md R56). -/

namespace Sys2Proof.Machine

/-- One evaluation. -/
def step (s : State) : Host.Outcome State Fault Refusal :=
  match decode s.fetch with
  | .error p => .refused (.reservedPortCode p)
  | .ok i => exec i s

/-- The word of spec/opcode_table.json presented on the port its format names (log 5, log 6); a word that presents
nothing changes nothing. -/
def State.withFetchWord (s : State) (nbits w : Nat) : State :=
  match tableWord nbits w with
  | none => s
  | some word => s.present word

end Sys2Proof.Machine
end

