-- ==== Sys2Proof/Machine/Combinational.lean ====
section
/-! DEFINITION. The block as the gates 70_reset_and_hazards.md R152 names: 64 hit computations, each a three-way selected
comparison, a 64-input priority encoder, a 64-way selection of the configuration bits, and the one expression of
44_top_level_check.md R100, all on the ports' bits. A second design of the same function: nothing in the machine calls it. -/

namespace Sys2Proof.Machine

/-- The address value of the slot below, 0 for slot 0 (R69), as wiring. -/
def gatePrev (s : State) (i : Fin 64) : Addr :=
  if i.val = 0 then 0#64 else (s.slots.get ⟨i.val - 1, by omega⟩).addr

/-- Slot i's TOR comparators: prev ≤ a < addr, unsigned (R68). -/
def gateTor (s : State) (i : Fin 64) : Bool :=
  (gatePrev s i).ule s.reqAddr && s.reqAddr.ult (s.slots.get i).addr

/-- Slot i's NA4 comparator: a[63:2] = addr[63:2] (R70, "Equivalent test without arithmetic"). -/
def gateNa4 (s : State) (i : Fin 64) : Bool :=
  s.reqAddr.extractLsb' 2 62 == (s.slots.get i).addr.extractLsb' 2 62

/-- Slot i's NAPOT comparator: the bits above the mask are equal, the mask being `w & ~(w + 1)` (R77 (g)); no match for
the mask `MAX` (R74). -/
def gateNapot (s : State) (i : Fin 64) : Bool :=
  let addr := (s.slots.get i).addr
  let w := addr ||| (addr - 1#64)
  let mask := w &&& ~~~(w + 1#64)
  mask != MAX && (s.reqAddr &&& ~~~mask) == (addr &&& ~~~mask)

/-- Slot i's hit: in the table, and the comparison its bits 4:3 select (R46, R82). -/
def gateHit (s : State) (i : Fin 64) : Bool :=
  let cfg := (s.slots.get i).cfg
  decide (i.val < s.nEntries.toNat) &&
    (if cfg.getLsbD 4 then (if cfg.getLsbD 3 then gateNapot s i else gateNa4 s i)
     else (if cfg.getLsbD 3 then gateTor s i else false))

/-- The priority encoder (R82): the lowest slot that hits. -/
def gateEncoder (s : State) : Option (Fin 64) := (List.finRange 64).find? (gateHit s)

/-- The configuration byte the 64-way selection passes on, 0 when nothing hits. -/
def gateConfig (s : State) : Byte :=
  match gateEncoder s with
  | none => 0#8
  | some i => (s.slots.get i).cfg

/-- Output `matched`. -/
def gateMatched (s : State) : Bool := (gateEncoder s).isSome

/-- Output `match_idx`. -/
def gateMatchIdx (s : State) : BitVec 6 :=
  match gateEncoder s with
  | none => 0#6
  | some i => BitVec.ofNat 6 i.val

/-- Output `allowed`: (matched and PERMBIT) or (mode = Machine and not (matched and L)) (R100), PERMBIT being
`cfg[req_op]` (R92). -/
def gateAllowed (s : State) : Bool :=
  (gateMatched s && (gateConfig s).getLsbD s.reqOp.toNat) ||
    (s.reqMode == 3#2 && !(gateMatched s && (gateConfig s).getLsbD 7))

end Sys2Proof.Machine
end

