-- ==== Sys2Proof/Config.lean ====
section
/-! DEFINITION. The parameters the spec names open (00_scope.md R10, 93_implementation_defined.md U3 to U6). None of
them is read by the step: U3 and U4 are settled for the block by R72 and R71 (90_conflicts.md C1, C2), and are kept here
as fields of `Reading` so that a claim can be made for EVERY reading; U5 and U6 concern the host software only and are
arguments of its functions. -/

namespace Sys2Proof

/-- How the two thinly evidenced corners of the resolver are read. -/
structure Reading where
  /-- `NapotMaskEven` (U3): the NAPOT mask of an even, non-zero address value. -/
  napotMaskEven : Addr → Addr
  /-- `Na4TopWrap` (U4): whether the NA4 range end wraps to 0 at the top of the address space. -/
  na4TopWrap : Bool

/-- The four checks of the host's inputs (60_exceptions.md R130). -/
inductive HostCheck where
  | address
  | mode
  | operation
  | file
deriving DecidableEq, Repr

/-- The four checks, each once. -/
def HostCheck.all : List HostCheck := [.address, .mode, .operation, .file]

/-- What the spec leaves open of the host software. -/
structure HostParams where
  /-- `HexLineParse` where no rule settles a file line (U5, D24). -/
  lineOpen : List Char → Option Addr
  /-- The same for the command-line address (U5, 90_conflicts.md C5). -/
  addrOpen : List Char → Option Addr
  /-- `HostCheckOrder` (U6, D25): the order of the four checks, a permutation of them. -/
  order : List HostCheck
  orderPerm : order.Perm HostCheck.all

end Sys2Proof
end

