-- ==== Sys2Proof/Machine/HostTool.lean ====
section
/-! DEFINITION. The host boundary (45_loader_and_cli.md, 60_exceptions.md R128 to R132): the configuration file, the
command line, the output. It is software outside the hardware (00_scope.md R6): no step calls it (log 23). What the spec
leaves open of it is an argument, `HostParams` (log 18, log 19). -/

namespace Sys2Proof.Machine

/-- The four kinds of host error, a closed set (60_exceptions.md R128, R140). -/
inductive ErrorKind where
  | inputFormatError
  | validationError
  | ioError
  | parseError
deriving DecidableEq, Repr

/-- What one run of the tool is given (45_loader_and_cli.md R106, R114): the lines of the configuration file, none where
it cannot be opened, and the texts of the three command-line values. -/
structure HostInput where
  file : Option (List (List Char))
  address : List Char
  mode : List Char
  operation : List Char
deriving DecidableEq, Repr

/-- How a run ends (60_exceptions.md R139). -/
inductive HostOutcome where
  /-- One line printed, status 0 (R119). -/
  | printed (r : AccessResult)
  /-- An error reported, a non-zero status, nothing printed (R129). -/
  | failed (k : ErrorKind)
deriving DecidableEq, Repr

/-! ### Hexadecimal text (R107, R115, D24) -/

/-- The value of a hexadecimal digit of either case (R107). -/
def hexDigit (c : Char) : Option Nat :=
  let n := c.toNat
  if 48 ≤ n ∧ n ≤ 57 then some (n - 48)
  else if 65 ≤ n ∧ n ≤ 70 then some (n - 55)
  else if 97 ≤ n ∧ n ≤ 102 then some (n - 87)
  else none

/-- The value of a run of hexadecimal digits, most significant first (20_memory.md R33), added to `acc`. -/
def hexValueFrom : Nat → List Char → Option Nat
  | acc, [] => some acc
  | acc, c :: cs =>
    match hexDigit c with
    | none => none
    | some d => hexValueFrom (16 * acc + d) cs

/-- The digits after a leading `0x`, where there is one. -/
def afterPrefix : List Char → Option (List Char)
  | '0' :: 'x' :: ds => some ds
  | _ => none

/-- White space, whose meaning around a line no rule settles (R107); the Unicode white-space characters (log 18). -/
def spaceChar (c : Char) : Bool :=
  let n := c.toNat
  (9 ≤ n && n ≤ 13) || n == 32 || n == 0x85 || n == 0xA0 || n == 0x1680 || (0x2000 ≤ n && n ≤ 0x200A) ||
    n == 0x2028 || n == 0x2029 || n == 0x202F || n == 0x205F || n == 0x3000

/-- A text without the white space around it. -/
def trim (t : List Char) : List Char := ((t.dropWhile spaceChar).reverse.dropWhile spaceChar).reverse

/-- A text without its sign, where it has one. -/
def afterSign : List Char → List Char
  | '+' :: t => t
  | '-' :: t => t
  | t => t

/-- What follows a leading `0x` or `0X`, where there is one. -/
def afterAnyPrefix : List Char → Option (List Char)
  | '0' :: 'x' :: ds => some ds
  | '0' :: 'X' :: ds => some ds
  | _ => none

/-- Hexadecimal digits, in any number, and digit separators (R107: "such as `_`"). -/
def digitsAndSeparators (t : List Char) : Bool := t.all fun c => (hexDigit c).isSome || c == '_'

/-- The shapes R107 and U5 leave open of a numeral WITH a prefix: white space around it, `0X` for `0x`, a sign on either
side of the prefix, digit separators, and any number of digits, none among them. -/
def openPrefixed (t : List Char) : Bool :=
  (afterAnyPrefix (afterSign (trim t))).any digitsAndSeparators ||
  (afterAnyPrefix (trim t)).any fun u => digitsAndSeparators (afterSign u)

/-- The shapes R107 and U5 leave open of a file line: those, and the same without a prefix, the text of no characters among
them. A text of any other shape holds a character that is no hexadecimal digit and stands where R107 leaves nothing
open: it is not hexadecimal (D24). DEDUCED (log 18). -/
def openText (t : List Char) : Bool := openPrefixed t || digitsAndSeparators (afterSign (trim t))

/-- The value of at most 16 hexadecimal digits; of no digits, 0 (R107: "a bare `0x` alone parses as 0"). -/
def hexValue (ds : List Char) : Option Addr :=
  if 16 < ds.length then none else (hexValueFrom 0 ds).map (BitVec.ofNat 64)

/-- A line the spec settles (R107, D24): an optional `0x` and up to 16 digits; not the empty line. -/
def settledLine (t : List Char) : Option Addr :=
  if t = [] then none else hexValue ((afterPrefix t).getD t)

/-- `HexLineParse`, one line of the file (R107, D24): a settled line has its value, a line of an open shape is
`lineOpen`'s, every other line is none. -/
def hexLine (p : HostParams) (t : List Char) : Option Addr :=
  match settledLine t with
  | some v => some v
  | none => if openText t then p.lineOpen t else none

/-- An address the spec settles (R115): the mandatory `0x` and 1 to 16 digits. -/
def settledAddress (t : List Char) : Option Addr :=
  match afterPrefix t with
  | none => none
  | some ds => if ds = [] then none else hexValue ds

/-- The target address (R115): a settled address has its value; an address with a prefix whose shape U5 or, for a bare
`0x`, 90_conflicts.md C5 leaves open is `addrOpen`'s; every other address is none, whatever U5 leaves open. So an address
without a prefix is none (R115, R118, R128: InputFormatError), be it `1_0`, `+2010`, `2010 ` or the address of no
characters: U5's openness is read as one about the numeral around and after its prefix, which for an address is
mandatory. DEDUCED (log 18). -/
def hexAddress (p : HostParams) (t : List Char) : Option Addr :=
  match settledAddress t with
  | some v => some v
  | none => if openPrefixed t then p.addrOpen t else none

/-! ### The four checks -/

/-- The target address, or InputFormatError (R115, R128). -/
def parseAddress (p : HostParams) (t : List Char) : Except ErrorKind Addr :=
  match hexAddress p t with
  | some a => .ok a
  | none => .error .inputFormatError

/-- The mode character, of either case, or ValidationError (R116, R128). -/
def parseMode (t : List Char) : Except ErrorKind Mode :=
  if t = ['M'] ∨ t = ['m'] then .ok .machine
  else if t = ['S'] ∨ t = ['s'] then .ok .supervisor
  else if t = ['U'] ∨ t = ['u'] then .ok .user
  else .error .validationError

/-- The operation character, of either case, or ValidationError (R117, R128). -/
def parseOperation (t : List Char) : Except ErrorKind Operation :=
  if t = ['R'] ∨ t = ['r'] then .ok .read
  else if t = ['W'] ∨ t = ['w'] then .ok .write
  else if t = ['X'] ∨ t = ['x'] then .ok .execute
  else .error .validationError

/-- Every line parsed, or none where one is malformed (R112, R113). -/
def parseLines (p : HostParams) : List (List Char) → Option (List Addr)
  | [] => some []
  | t :: ts =>
    match hexLine p t, parseLines p ts with
    | some v, some vs => some (v :: vs)
    | _, _ => none

/-- The table of the parsed values (R108 to R110): the first 64 are configuration values, narrowed to their low 8 bits
(R109); the next 64 are address values; the two are zipped to the shorter. -/
def formTable (vs : List Addr) : Table :=
  List.zipWith (fun c a => { cfg := c.setWidth 8, addr := a }) (vs.take 64) ((vs.drop 64).take 64)

/-- The loader (R112, R113): reading stops after 128 lines. -/
def loadTable (p : HostParams) : Option (List (List Char)) → Except ErrorKind Table
  | none => .error .ioError
  | some ls =>
    match parseLines p (ls.take 128) with
    | none => .error .parseError
    | some vs => .ok (formTable vs)

/-- The error one check finds, if any (R128). -/
def checkError (p : HostParams) (inp : HostInput) : HostCheck → Option ErrorKind
  | .address => match parseAddress p inp.address with | .error k => some k | .ok _ => none
  | .mode => match parseMode inp.mode with | .error k => some k | .ok _ => none
  | .operation => match parseOperation inp.operation with | .error k => some k | .ok _ => none
  | .file => match loadTable p inp.file with | .error k => some k | .ok _ => none

/-- The errors that apply to a run's inputs (R128). -/
def applicable (p : HostParams) (inp : HostInput) (k : ErrorKind) : Bool :=
  HostCheck.all.any fun c => checkError p inp c == some k

/-- One run of the tool (R118 to R120, R129): the first error in the order of the checks, or one evaluation and its line.
`ioError` stands where no check found an error although some input did not parse, which does not happen. -/
def runTool (p : HostParams) (inp : HostInput) : HostOutcome :=
  match parseAddress p inp.address, parseMode inp.mode, parseOperation inp.operation, loadTable p inp.file with
  | .ok a, .ok m, .ok o, .ok T => .printed (check T a m o)
  | _, _, _, _ => .failed ((p.order.findSome? (checkError p inp)).getD .ioError)

/-- The line printed on standard output, if any (R119, R129). -/
def outputLine : HostOutcome → Option String
  | .printed .allowed => some "Access allowed"
  | .printed .denied => some "Access denied"
  | .failed _ => none

/-- Whether the exit status is 0 (R119, R129); the value of a non-zero status is not given. -/
def statusZero : HostOutcome → Bool
  | .printed _ => true
  | .failed _ => false

end Sys2Proof.Machine
end

