-- ==== Sys2Proof/Machine/Readings.lean ====
section
/-! DEFINITION. The block under every reading of the two corners whose evidence is thin
(93_implementation_defined.md U3, U4). The machine itself follows the spec's decisions (90_conflicts.md C1, C2); these
functions let a claim be made for every reading. -/

namespace Sys2Proof.Machine

/-- The spec's own reading (D7, D8). -/
def adoptedReading : Reading where
  napotMaskEven := napotMask
  na4TopWrap := false

/-- The literal formula `addr ^ (addr - 1)` (90_conflicts.md C1, U3): the one alternative with textual support. -/
def literalMask (addr : Addr) : Addr := addr ^^^ (addr - 1#64)

/-- RNG_NAPOT under a reading (U3): the parameter replaces the mask of R72 on even, non-zero values. -/
def rngNapotUnder (ρ : Reading) (addr : Addr) : Range :=
  if addr.getLsbD 0 = false ∧ addr ≠ 0#64 then rangeOfMask addr (ρ.napotMaskEven addr) else rngNapot addr

/-- RNG_NA4 under a reading (U4): the end wraps to 0 at the top of the address space, or does not. -/
def rngNa4Under (ρ : Reading) (addr : Addr) : Range where
  start := na4Base addr
  stop := if ρ.na4TopWrap then (na4Base addr + 4#64).setWidth 65 else (na4Base addr).setWidth 65 + 4#65

/-- RESOLVE (R80) under a reading. -/
def resolveUnder (ρ : Reading) (a : AMode) (addr prev : Addr) : Option Range :=
  match a with
  | .off => none
  | .tor => some (rngTor addr prev)
  | .na4 => some (rngNa4Under ρ addr)
  | .napot => some (rngNapotUnder ρ addr)

/-- CHECK (R98) under a reading. -/
def checkUnder (ρ : Reading) (T : Table) (a : Addr) (m : Mode) (o : Operation) : AccessResult :=
  decideOn (scanFrom (resolveUnder ρ) a 0#64 0 T) m o

/-- Whether an entry is one of those U3 and U4 leave in doubt: NAPOT on an even non-zero value, or NA4 at the top of the
address space. -/
def doubtfulEntry (e : PmpEntry) : Bool :=
  match (cfgdec e.cfg).a with
  | .off => false
  | .tor => false
  | .na4 => decide (0xFFFFFFFFFFFFFFFC ≤ e.addr.toNat)
  | .napot => !e.addr.getLsbD 0 && e.addr != 0#64

end Sys2Proof.Machine
end

