-- ==== Sys2Proof/Safety.lean ====
section
/-! DEFINITION. What the statements speak of: legal ports, equal inputs, a delivered result that is the block's
function of the inputs. A run of this block is safe when no step faults, which no step can (60_exceptions.md R125), and
when it is refused only for a reserved port code (R139). -/

namespace Sys2Proof.Machine

/-- The three ports with reserved codes carry legal ones (30_encoding.md R56, 70_reset_and_hazards.md R145). -/
def LegalPorts (s : State) : Prop :=
  countOk s.nEntries = true ∧ modeCodeOk s.reqMode = true ∧ opCodeOk s.reqOp = true

/-- Two states whose block inputs are equal: the table ports and the request ports (10_state.md R26, R27). -/
def SameBlockInputs (s t : State) : Prop :=
  s.slots = t.slots ∧ s.nEntries = t.nEntries ∧ s.reqAddr = t.reqAddr ∧ s.reqMode = t.reqMode ∧ s.reqOp = t.reqOp

/-- Two states that present the same: the block's inputs, and the model's own selection. -/
def SameInputs (s t : State) : Prop := SameBlockInputs s t ∧ s.sel = t.sel ∧ s.slot = t.slot

/-- The result delivered last is the block's function of the inputs that stand on the ports now
(70_reset_and_hazards.md R142), where the inputs are legal: for reserved codes no output is specified (30_encoding.md
R56). The output ports themselves, `State.outputs`, are that function by definition. -/
def OutputsFollow (s : State) : Prop :=
  ∀ m o, countOk s.nEntries = true → decodeMode s.reqMode = some m → decodeOp s.reqOp = some o →
    s.delivered.allowed = allowedBit (check s.table s.reqAddr m o) ∧
    s.delivered.matched = matchedBit (matchEntry s.table s.reqAddr) ∧
    s.delivered.matchIdx = matchIdxBits (matchEntry s.table s.reqAddr)

/-- A character that is no part of hexadecimal text under any reading of the open points (45_loader_and_cli.md R107, D24):
no digit, no white space, no sign, no separator, and not the `x` of a prefix. -/
def badChar (c : Char) : Bool :=
  (hexDigit c).isNone && !spaceChar c && c != '+' && c != '-' && c != '_' && c != 'x' && c != 'X'

/-- The text has a `0x` or an `0X` somewhere. -/
def HasPrefix (t : List Char) : Prop := ∃ u v, t = u ++ '0' :: 'x' :: v ∨ t = u ++ '0' :: 'X' :: v

/-- The byte's field A (30_encoding.md R46) is Off. -/
abbrev isOff (e : PmpEntry) : Prop := (cfgdec e.cfg).a = .off

/-- Entry i is the one the matcher answers: it hits and no earlier entry does (42_entry_matcher.md R82). -/
def firstHit (T : Table) (a : Addr) (i : Nat) : Prop := hit T i a = true ∧ ∀ j, j < i → hit T j a = false

/-- What a CHECK whose operation looks up bit `k` of the matched entry's byte leaves (44_top_level_check.md R98, R99,
43_permission_evaluator.md R91, R92, 42_entry_matcher.md R81): nothing but the delivered result is new; with no hit it
says the default policy and index 0 (log 12), with a first hit that entry's decision. -/
def CheckAnswer (s : State) (m : Mode) (a : Addr) (k : Nat) (t : State) : Prop :=
  t = { s with delivered := t.delivered } ∧
  ((∀ i, hit s.table i a = false) →
    t.delivered.matched = false ∧ t.delivered.matchIdx = 0#6 ∧ (t.delivered.allowed = true ↔ m = .machine)) ∧
  (∀ i e, s.table[i]? = some e → firstHit s.table a i →
    t.delivered.matched = true ∧ t.delivered.matchIdx.toNat = i ∧
    (t.delivered.allowed = true ↔ (m = .machine ∧ e.cfg.getLsbD 7 = false) ∨ e.cfg.getLsbD k = true))

end Sys2Proof.Machine
end

