-- ==== Sys2Proof/Certificates/Slice0/Obligations.lean ====
section
/-! DEFINITION. The statements about the PMP checker, in the order of the spec's files: encoding, decoder, resolver,
matcher, evaluator, top-level check, the machine as a whole, the host boundary. -/

open Sys2Proof Sys2Proof.Machine

/-! ### Encoding -/

/-- Decoding what an instruction is encoded as gives the instruction back, for all ten constructors and every operand
(30_encoding.md R43, R46, R49, R50, R54). -/
def Obligations.DecodeOfEncodeIsTheInstruction : Prop :=
  ∀ i : Instr, decode (encode i) = .ok i

/-- What a configuration byte on the way to the resolver decodes to is encoded as the same byte, and what a request word
and its address decode to as the same request (30_encoding.md R43, R54). Of a configuration word the byte alone is spoken
of: its two address values may differ. That the byte comes back with its bits 6 and 5 is the model's choice, since its
RNG instructions carry them (log 11); the spec's decoder has no place for them (R61), and the byte of a word for PERM does
lose them. -/
def Obligations.EncodeOfDecodeKeepsByteAndRequest : Prop :=
  (∀ b addr prev, ∃ i addr' prev', decode (.cfg8 b addr prev) = .ok i ∧ encode i = .cfg8 b addr' prev') ∧
  (∀ q a i, decode (.req4 q a) = .ok i → encode i = .req4 q a)

/-- Bits 4:3 of the byte alone select the range computation, all four values being defined (30_encoding.md R46). -/
def Obligations.FieldASelectsTheRangeComputation : Prop :=
  ∀ (b : Byte) (addr prev : Addr), ∃ f : CfgRest,
    (b &&& 0x18#8 = 0x00#8 → decode (.cfg8 b addr prev) = .ok (.rngOff f)) ∧
    (b &&& 0x18#8 = 0x08#8 → decode (.cfg8 b addr prev) = .ok (.rngTor f addr prev)) ∧
    (b &&& 0x18#8 = 0x10#8 → decode (.cfg8 b addr prev) = .ok (.rngNa4 f addr)) ∧
    (b &&& 0x18#8 = 0x18#8 → decode (.cfg8 b addr prev) = .ok (.rngNapot f addr))

/-- The nine legal request words and the seven reserved ones (30_encoding.md R49, R50, R54, R56). That the mode's port is
named where both codes are reserved is the model's choice (log 8). -/
def Obligations.RequestWordsSelectTheCheckForm : Prop :=
  ∀ a : Addr,
    decode (.req4 0b0000#4 a) = .ok (.checkR .user a) ∧ decode (.req4 0b0001#4 a) = .ok (.checkW .user a) ∧
    decode (.req4 0b0010#4 a) = .ok (.checkX .user a) ∧ decode (.req4 0b0100#4 a) = .ok (.checkR .supervisor a) ∧
    decode (.req4 0b0101#4 a) = .ok (.checkW .supervisor a) ∧ decode (.req4 0b0110#4 a) = .ok (.checkX .supervisor a) ∧
    decode (.req4 0b1100#4 a) = .ok (.checkR .machine a) ∧ decode (.req4 0b1101#4 a) = .ok (.checkW .machine a) ∧
    decode (.req4 0b1110#4 a) = .ok (.checkX .machine a) ∧
    (∀ o : BitVec 2, decode (.req4 (2#2 ++ o) a) = .error .reqMode) ∧
    (∀ m : BitVec 2, m ≠ 2#2 → decode (.req4 (m ++ 3#2) a) = .error .reqOp)

/-- A few words written out bit by bit: configuration bytes (30_encoding.md R43, R46, 95_test_vectors.md section 2.1) and
request words (R49, R50, R54). The numbers of the mode and operation codes are the spec's own choice (log 13). -/
def Obligations.WordsWrittenOutDecode : Prop :=
  cfgdec 0b10011111#8 = { r := true, w := true, x := true, a := .napot, l := true } ∧
  cfgdec 0b00001101#8 = { r := true, w := false, x := true, a := .tor, l := false } ∧
  decode (.cfg8 0b10011101#8 0x20000007#64 0#64) =
    .ok (.rngNapot { l := true, ii := 0#2, x := true, w := false, r := true } 0x20000007#64) ∧
  decode (.cfg8 0b00010011#8 0x5002#64 0x4000#64) =
    .ok (.rngNa4 { l := false, ii := 0#2, x := false, w := true, r := true } 0x5002#64) ∧
  decode (.req4 0b1101#4 0x20000004#64) = .ok (.checkW .machine 0x20000004#64) ∧
  decode (.perm 0b10011011#8 0b0110#4) =
    .ok (.perm { r := true, w := true, x := false, a := .napot, l := true } .supervisor .execute)

/-- A reserved code on a port that the presented operation reads is refused by the name of the port, and gets no meaning
(30_encoding.md R56); and no output is specified for any. Which port is named where several are reserved is the model's
choice (log 8). -/
def Obligations.ReservedPortCodesAreRefused : Prop :=
  ∀ s : State,
    ((s.sel = .check ∨ s.sel = .perm) → s.reqMode = 2#2 → step s = .refused (.reservedPortCode .reqMode)) ∧
    ((s.sel = .check ∨ s.sel = .perm) → s.reqMode ≠ 2#2 → s.reqOp = 3#2 →
      step s = .refused (.reservedPortCode .reqOp)) ∧
    (s.sel = .check → s.reqMode ≠ 2#2 → s.reqOp ≠ 3#2 → 64 < s.nEntries.toNat →
      step s = .refused (.reservedPortCode .nEntries)) ∧
    (s.sel = .matchScan → 64 < s.nEntries.toNat → step s = .refused (.reservedPortCode .nEntries)) ∧
    (s.reqMode = 2#2 → s.outputs = .error .reqMode) ∧
    (s.reqMode ≠ 2#2 → s.reqOp = 3#2 → s.outputs = .error .reqOp) ∧
    (s.reqMode ≠ 2#2 → s.reqOp ≠ 3#2 → 64 < s.nEntries.toNat → s.outputs = .error .nEntries)

/-! ### The step -/

/-- A step is exec of the instruction that the presented word decodes to, and nothing around it
(44_top_level_check.md R105). -/
def Obligations.StepRunsTheDecodedInstruction : Prop :=
  ∀ s i, decode s.fetch = .ok i → step s = exec i s

/-- What each selection presents: the request ports to CHECK and MATCH, the selected slot's byte, its address value and
the value of the slot below to the stages (10_state.md R27, 41_range_resolver.md R69). Presenting a stage operation to a
slot is the model's choice (log 2). -/
def Obligations.StepPresentsThePorts : Prop :=
  (∀ s m o, s.sel = .check → decodeMode s.reqMode = some m → decodeOp s.reqOp = some o →
    step s = exec (checkInstr m s.reqAddr o) s) ∧
  (∀ s, s.sel = .matchScan → step s = exec (.matchScan s.reqAddr) s) ∧
  (∀ s, s.sel = .cfgdec → step s = exec (.cfgdec (s.slots.get s.slot).cfg) s) ∧
  (∀ s m o, s.sel = .perm → decodeMode s.reqMode = some m → decodeOp s.reqOp = some o →
    step s = exec (.perm (cfgdec (s.slots.get s.slot).cfg) m o) s) ∧
  (∀ s, s.sel = .rng → s.slot = 0 →
    step s = exec (decodeRng (s.slots.get 0).cfg (s.slots.get 0).addr 0#64) s) ∧
  (∀ s (i j : Fin 64), s.sel = .rng → s.slot = i → j.val + 1 = i.val →
    step s = exec (decodeRng (s.slots.get i).cfg (s.slots.get i).addr (s.slots.get j).addr) s)

/-! ### Config Decoder -/

/-- CFGDEC completes on every byte in every state, each field is the bit the spec gives it, and nothing else changes
(40_config_decoder.md R58, R60). -/
def Obligations.CfgdecExtractsEachField : Prop :=
  ∀ (b : Byte) (s : State), ∃ t, exec (.cfgdec b) s = .next t ∧ t = { s with decoded := t.decoded } ∧
    t.decoded.l = ((b >>> 7) &&& 1#8 == 1#8) ∧
    (amodeCode t.decoded.a).setWidth 8 = ((b >>> 3) &&& 0b11#8) ∧
    t.decoded.r = (b &&& 1#8 == 1#8) ∧
    t.decoded.w = ((b >>> 1) &&& 1#8 == 1#8) ∧
    t.decoded.x = ((b >>> 2) &&& 1#8 == 1#8)

/-- Every Config is reached, by exactly the four bytes that differ in bits 6 and 5 (40_config_decoder.md R61). -/
def Obligations.EachConfigComesFromFourBytes : Prop :=
  ∀ c : Config, ∃ b₀ : Byte, b₀ &&& 0x60#8 = 0#8 ∧ ∀ b : Byte, cfgdec b = c ↔ b &&& 0x9F#8 = b₀

/-- Two bytes that differ only in bits 6 and 5 decode to the same Config, and tables that differ only there give the same
match and the same result to every request (30_encoding.md R44). -/
def Obligations.IgnoredBitsChangeNothing : Prop :=
  (∀ b b' : Byte, b &&& 0x9F#8 = b' &&& 0x9F#8 → cfgdec b = cfgdec b') ∧
  (∀ (T T' : Table) a m o,
    List.Forall₂ (fun e e' => e.addr = e'.addr ∧ e.cfg &&& 0x9F#8 = e'.cfg &&& 0x9F#8) T T' →
    matchEntry T a = matchEntry T' a ∧ check T a m o = check T' a m o)

/-! ### Range Resolver -/

/-- RNG.OFF completes in every state, defines no range, and changes nothing else (41_range_resolver.md R67). That "no
range" is shown as none is the model's choice (log 14). -/
def Obligations.RngOffDefinesNoRange : Prop :=
  ∀ f s, exec (.rngOff f) s = .next { s with range := none }

/-- RNG.TOR completes in every state; its range is [prev, addr) with both bounds as stored, so it is empty where prev is
not below addr and never holds MAX; nothing else changes (41_range_resolver.md R66, R68). -/
def Obligations.RngTorIsPrevToAddr : Prop :=
  ∀ f (addr prev : Addr) (s : State), ∃ t r, exec (.rngTor f addr prev) s = .next t ∧
    t = { s with range := some r } ∧ r.start = prev ∧ r.stop.toNat = addr.toNat ∧
    (∀ a : Addr, r.contains a = true ↔ prev.toNat ≤ a.toNat ∧ a.toNat < addr.toNat) ∧
    (addr.toNat ≤ prev.toNat → ∀ a : Addr, r.contains a = false) ∧
    r.contains MAX = false

/-- RNG.NA4 completes in every state; its range starts at the address value aligned down to 4 and ends 4 above as an
integer sum; nothing else changes (41_range_resolver.md R70). That the end is that sum for an address value at or above
0xFFFFFFFFFFFFFFFC too is the spec's decision D8 (R71, U4; log 10). -/
def Obligations.RngNa4IsFourAlignedBytes : Prop :=
  ∀ f (addr : Addr) (s : State), ∃ t r, exec (.rngNa4 f addr) s = .next t ∧
    t = { s with range := some r } ∧ r.start = addr &&& ~~~3#64 ∧
    r.start.toNat % 4 = 0 ∧ r.start.toNat ≤ addr.toNat ∧ addr.toNat < r.start.toNat + 4 ∧
    r.stop.toNat = r.start.toNat + 4

/-- An NA4 range holds an address exactly when bits 63:2 agree, at the top of the address space too, where its end is
2^64. The sum without wrap-around at the top is the spec's decision D8 (log 10). -/
def Obligations.Na4ContainsByUpperBits : Prop :=
  (∀ addr a : Addr, (rngNa4 addr).contains a = true ↔ a.extractLsb' 2 62 = addr.extractLsb' 2 62) ∧
  (∀ addr : Addr, 0xFFFFFFFFFFFFFFFC ≤ addr.toNat →
    (rngNa4 addr).stop.toNat = 2 ^ 64 ∧ (rngNa4 addr).contains MAX = true)

/-- RNG.NAPOT completes in every state with the base and the size that the mask of `addr | (addr - 1)` gives, the end
being an integer sum; nothing else changes. The mask is the spec's decision D7 (log 9). -/
def Obligations.RngNapotIsBaseAndSizeOfTheMask : Prop :=
  ∀ f (addr : Addr) (s : State), ∃ t r, exec (.rngNapot f addr) s = .next t ∧
    t = { s with range := some r } ∧
    ∀ w mask : Addr, w = addr ||| (addr - 1#64) → mask = lowmask (tz1 w) →
      r.start = addr &&& ~~~mask ∧ r.stop.toNat = r.start.toNat + (mask + 1#64).toNat

/-- The mask computed without a loop: the low run of ones of w is `w & ~(w + 1)` (41_range_resolver.md R77 (g)). -/
def Obligations.LowRunMaskWithoutALoop : Prop :=
  ∀ w : Addr, lowmask (tz1 w) = w &&& ~~~(w + 1#64)

/-- The NAPOT range by the shape of the address value: z trailing zeros and above them a run of r ones, ended by a zero,
give a range of 2^(z+r) bytes at the value with its low z+r bits cleared. For z = 0 it is the source's trailing-ones
encoding; for z > 0 it rests on the spec's decision D7 (log 9). -/
def Obligations.NapotRangeByShape : Prop :=
  ∀ (addr : Addr) (z r : Nat), 1 ≤ r → z + r < 64 → addr.toNat % 2 ^ (z + r + 1) = 2 ^ (z + r) - 2 ^ z →
    (rngNapot addr).start.toNat + (2 ^ (z + r) - 2 ^ z) = addr.toNat ∧
    (rngNapot addr).stop.toNat = (rngNapot addr).start.toNat + 2 ^ (z + r)

/-- NAPOT of 0 is [0, 0), and the NAPOT ranges that hold no address are those of the 65 values made of ones at the top and
zeros below. The non-zero even ones rest on the spec's decision D7 (log 9). -/
def Obligations.NapotEmptyForExactly65Values : Prop :=
  rngNapot 0#64 = { start := 0#64, stop := 0#65 } ∧
  ∀ addr : Addr, (∀ a, (rngNapot addr).contains a = false) ↔ ∃ k, k ≤ 64 ∧ addr.toNat = 2 ^ 64 - 2 ^ k

/-- A NAPOT range ends at or below MAX, its integer sum and its 64-bit sum agree, and it never holds MAX
(41_range_resolver.md R75; the mask is decision D7, log 9). -/
def Obligations.NapotNeverReachesTheTop : Prop :=
  ∀ addr : Addr, (rngNapot addr).stop.toNat ≤ 2 ^ 64 - 1 ∧
    (rngNapot addr).stop.toNat = ((rngNapot addr).start + (napotMask addr + 1#64)).toNat ∧
    (rngNapot addr).contains MAX = false

/-- A NAPOT range that holds an address has 2^t bytes, t from 1 to 63, starts at a multiple of 2^t, and holds its own
address value (41_range_resolver.md R78; the mask is decision D7, log 9). -/
def Obligations.NonEmptyNapotIsAlignedPowerOfTwo : Prop :=
  ∀ addr a : Addr, (rngNapot addr).contains a = true →
    ∃ t, 1 ≤ t ∧ t ≤ 63 ∧ (rngNapot addr).start.toNat % 2 ^ t = 0 ∧
      (rngNapot addr).stop.toNat = (rngNapot addr).start.toNat + 2 ^ t ∧ (rngNapot addr).contains addr = true

/-- The resolver reads field A, the entry's address value and its predecessor's, and nothing else: with those equal, a
step of the resolver in any two states answers the same range (41_range_resolver.md R65). -/
def Obligations.ResolverReadsOnlyItsOperands : Prop :=
  ∀ s s' : State, s.sel = .rng → s'.sel = .rng →
    (s.slots.get s.slot).cfg &&& 0x18#8 = (s'.slots.get s'.slot).cfg &&& 0x18#8 →
    (s.slots.get s.slot).addr = (s'.slots.get s'.slot).addr → s.slotPrev = s'.slotPrev →
    ∃ t t', step s = .next t ∧ step s' = .next t' ∧ t.range = t'.range

/-- Whatever reading is taken of the two doubtful corners, NAPOT agrees on odd values and on 0, and NA4 agrees below the
top four addresses (93_implementation_defined.md U3, U4). -/
def Obligations.EveryReadingAgreesOffTheCorners : Prop :=
  ∀ (ρ : Reading) (addr : Addr),
    (addr.getLsbD 0 = true ∨ addr = 0#64 → rngNapotUnder ρ addr = rngNapot addr) ∧
    (addr.toNat < 0xFFFFFFFFFFFFFFFC → rngNa4Under ρ addr = rngNa4 addr)

/-- A table with no entry in a doubtful corner gives every request the same result under every reading, and every table
does under the spec's own reading (93_implementation_defined.md U3, U4). -/
def Obligations.ChecksAgreeUnderEveryReading : Prop :=
  (∀ (ρ : Reading) (T : Table) a m o, (∀ e ∈ T, doubtfulEntry e = false) → checkUnder ρ T a m o = check T a m o) ∧
  (∀ (T : Table) a m o, checkUnder adoptedReading T a m o = check T a m o)

/-- The literal formula and the adopted mask agree exactly where the lowest set bit is followed by a zero bit, or there is
no set bit (95_test_vectors.md section 2.4; decision D7, log 9). -/
def Obligations.LiteralMaskAgreesExactlyWhen : Prop :=
  ∀ addr : Addr, literalMask addr = napotMask addr ↔ addr &&& ((addr &&& (0#64 - addr)) <<< 1) = 0#64

/-! ### Entry Matcher -/

/-- When entry i hits: it exists, it is not Off, and its range contains the address; for TOR the lower bound is the raw
address value of entry i - 1, whatever that entry is, and 0 for entry 0 (42_entry_matcher.md R82, 41_range_resolver.md
R68 to R70). The NA4 and NAPOT clauses rest on decisions D7, D8 (log 9, log 10). -/
def Obligations.HitIsContainmentByMode : Prop :=
  ∀ (T : Table) (i : Nat) (a : Addr), hit T i a = true ↔ ∃ e, T[i]? = some e ∧
    match (cfgdec e.cfg).a with
    | .off => False
    | .tor => (∀ p, i ≠ 0 → T[i - 1]? = some p → p.addr.toNat ≤ a.toNat) ∧ a.toNat < e.addr.toNat
    | .na4 => a.toNat / 4 = e.addr.toNat / 4
    | .napot => (rngNapot e.addr).start.toNat ≤ a.toNat ∧ a.toNat < (rngNapot e.addr).stop.toNat

/-- MATCH is Some of the least index that hits, and None when none hits (42_entry_matcher.md R82). -/
def Obligations.MatchIsTheLeastHit : Prop :=
  ∀ (T : Table) (a : Addr),
    (∀ i, matchEntry T a = some i ↔ hit T i a = true ∧ ∀ j, j < i → hit T j a = false) ∧
    (matchEntry T a = none ↔ ∀ i, hit T i a = false)

/-- MATCH completes in every state with a legal entry count and answers the index of the first hit, or none; nothing else
changes. On the ports, for the address presented there, that is matched = 1 with the index, or matched = 0 with index 0
(42_entry_matcher.md R81, R82). Index 0 on no match is the spec's own port definition, which it advises no claim to rest
on (decision D5, U8; log 12). -/
def Obligations.MatchAnswersOnThePorts : Prop :=
  ∀ (s : State) (a : Addr), s.nEntries.toNat ≤ 64 → ∃ t, exec (.matchScan a) s = .next t ∧
    t = { s with found := t.found } ∧
    ((∀ i, hit s.table i a = false) → t.found = none) ∧
    (∀ i, firstHit s.table a i → t.found = some i) ∧
    (∀ x, s.reqAddr = a → s.outputs = .ok x →
      ((∀ i, hit s.table i a = false) → x.matched = false ∧ x.matchIdx = 0#6) ∧
      (∀ i, firstHit s.table a i → x.matched = true ∧ x.matchIdx.toNat = i))

/-- An Off entry is never the one matched, wherever it stands, and its address value is still the lower bound of a TOR
entry after it (42_entry_matcher.md R83). -/
def Obligations.OffEntriesAreSkippedInPlace : Prop :=
  ∀ (U V : Table) (e : PmpEntry) (a : Addr), isOff e →
    matchEntry (U ++ e :: V) a ≠ some U.length ∧
    (∀ e' V', V = e' :: V' → (cfgdec e'.cfg).a = .tor →
      (hit (U ++ e :: V) (U.length + 1) a = true ↔ e.addr.toNat ≤ a.toNat ∧ a.toNat < e'.addr.toNat))

/-- A table with no enabled entry, the empty table among them, matches nothing (42_entry_matcher.md R85). -/
def Obligations.NoEnabledEntryMatchesNothing : Prop :=
  ∀ (T : Table) a, (∀ e ∈ T, isOff e) → matchEntry T a = none

/-- An entry with an empty range is never matched: a TOR entry whose predecessor value is not below its own, a NAPOT entry
with one of the 65 values (42_entry_matcher.md R86; decision D7, log 9). -/
def Obligations.EmptyRangesAreNeverMatched : Prop :=
  ∀ (T : Table) a i e, matchEntry T a = some i → T[i]? = some e →
    ((cfgdec e.cfg).a = .tor → (prevAddr T i).toNat < e.addr.toNat) ∧
    ((cfgdec e.cfg).a = .napot → ∀ k, k ≤ 64 → e.addr.toNat ≠ 2 ^ 64 - 2 ^ k)

/-- MATCH depends on each entry only through its field A and its address value (42_entry_matcher.md R87). -/
def Obligations.MatchReadsOnlyModesAndAddresses : Prop :=
  ∀ (T T' : Table) a,
    List.Forall₂ (fun e e' => e.addr = e'.addr ∧ e.cfg &&& 0x18#8 = e'.cfg &&& 0x18#8) T T' →
    matchEntry T a = matchEntry T' a

/-- The index MATCH answers is below the length of the table, so for a legal table `match_idx` holds it whole
(42_entry_matcher.md R88). -/
def Obligations.MatchIndexFitsThePort : Prop :=
  ∀ (T : Table) a i, matchEntry T a = some i →
    i < T.length ∧ (tableOk T = true → (matchIdxBits (some i)).toNat = i)

/-- Off entries added at the end change neither the match nor the result of any request (10_state.md R28). -/
def Obligations.OffPaddingChangesNothing : Prop :=
  ∀ (T P : Table) a m o, (∀ e ∈ P, isOff e) →
    matchEntry (T ++ P) a = matchEntry T a ∧ check (T ++ P) a m o = check T a m o

/-- Entries added at the end never change what an address that already matches gets (44_top_level_check.md R103 (e)). -/
def Obligations.AppendingKeepsAnExistingMatch : Prop :=
  ∀ (T U : Table) a m o i, matchEntry T a = some i →
    matchEntry (T ++ U) a = some i ∧ check (T ++ U) a m o = check T a m o

/-! ### Permission Evaluator -/

/-- PERM completes in every state; it allows exactly a Machine request to an unlocked entry, or one whose own permission
bit is set; nothing else changes (43_permission_evaluator.md R91, R92). -/
def Obligations.PermIsTheDecisionTable : Prop :=
  ∀ (c : Config) (m : Mode) (o : Operation) (s : State), ∃ t, exec (.perm c m o) s = .next t ∧
    t = { s with verdict := t.verdict } ∧
    (t.verdict = .allowed ↔ (m = .machine ∧ c.l = false) ∨
      (match o with
        | .read => c.r
        | .write => c.w
        | .execute => c.x) = true)

/-- The code of an operation is the position in the byte of the permission bit it looks up (30_encoding.md R50,
43_permission_evaluator.md R92). -/
def Obligations.OperationCodeIsThePermissionBit : Prop :=
  ∀ (b : Byte) (o : Operation), permBit (cfgdec b) o = b.getLsbD (opCode o).toNat

/-- PERM treats Supervisor and User alike, whatever the lock bit; the lock bit changes a result only for Machine with the
permission bit clear, where it turns Allowed into Denied (43_permission_evaluator.md R94). -/
def Obligations.LockMattersToMachineAlone : Prop :=
  ∀ (c : Config) (o : Operation),
    perm c .supervisor o = perm c .user o ∧
    (∀ m l, m ≠ .machine → perm { c with l := l } m o = if permBit c o then .allowed else .denied) ∧
    perm { c with l := false } .machine o = .allowed ∧
    (perm { c with l := true } .machine o = .denied ↔ permBit c o = false)

/-! ### Top-Level Decision -/

/-- CHECK.R, CHECK.W and CHECK.X complete in every state with a legal entry count and deliver, as the three outputs, what
the matcher and the evaluator give, or the default policy; each looks up its own bit of the byte; nothing else changes
(44_top_level_check.md R98, R99, R105). Index 0 on no match is the spec's own port definition, which it advises no claim
to rest on (decision D5, U8; log 12). That the delivered result stands in a field is the model's choice (log 1). -/
def Obligations.ChecksAnswerOnThePorts : Prop :=
  ∀ (s : State) (m : Mode) (a : Addr), s.nEntries.toNat ≤ 64 →
    (∃ t, exec (.checkR m a) s = .next t ∧ CheckAnswer s m a 0 t) ∧
    (∃ t, exec (.checkW m a) s = .next t ∧ CheckAnswer s m a 1 t) ∧
    (∃ t, exec (.checkX m a) s = .next t ∧ CheckAnswer s m a 2 t)

/-- The whole of CHECK as one expression: allowed = (matched and PERMBIT) or (mode = Machine and not (matched and L))
(44_top_level_check.md R100). -/
def Obligations.CheckAsOneExpression : Prop :=
  ∀ (T : Table) a m o, check T a m o = .allowed ↔
    (∃ i e, matchEntry T a = some i ∧ T[i]? = some e ∧ permBit (cfgdec e.cfg) o = true) ∨
    (m = .machine ∧ ¬ ∃ i e, matchEntry T a = some i ∧ T[i]? = some e ∧ (cfgdec e.cfg).l = true)

/-- What each mode may do: Machine everywhere but where the first matching entry is locked with the operation's bit clear;
Supervisor and User, identically, only where the first matching entry has the operation's bit set
(60_exceptions.md R134). -/
def Obligations.WhatEachModeMayDo : Prop :=
  ∀ (T : Table) a o,
    (matchEntry T a = none →
      check T a .machine o = .allowed ∧ check T a .supervisor o = .denied ∧ check T a .user o = .denied) ∧
    (∀ i e, matchEntry T a = some i → T[i]? = some e →
      ((cfgdec e.cfg).l = false → check T a .machine o = .allowed) ∧
      ((cfgdec e.cfg).l = true → (check T a .machine o = .allowed ↔ permBit (cfgdec e.cfg) o = true)) ∧
      (check T a .supervisor o = .allowed ↔ permBit (cfgdec e.cfg) o = true) ∧
      (check T a .user o = .allowed ↔ permBit (cfgdec e.cfg) o = true))

/-- The empty table, and a table of Off entries only: the outputs, and what a step of CHECK delivers, are Allowed for
Machine and Denied for the others, for every address and operation, with no match (44_top_level_check.md R101). -/
def Obligations.EmptyTableFollowsTheDefault : Prop :=
  ∀ s : State, LegalPorts s → (∀ e ∈ s.table, isOff e) →
    ∃ x, s.outputs = .ok x ∧ x.matched = false ∧ (x.allowed = true ↔ s.reqMode = 3#2) ∧
      (s.sel = .check → ∃ t, step s = .next t ∧ t.delivered = x)

/-- What User is allowed Machine is allowed, and Supervisor and User always get the same result; clearing the lock bit of
an entry, or setting permission bits of it, never turns Allowed into Denied (44_top_level_check.md R103 (a), (b), (c)). -/
def Obligations.ResultsAreMonotone : Prop :=
  (∀ (T : Table) a o, check T a .supervisor o = check T a .user o ∧
    (check T a .user o = .allowed → check T a .machine o = .allowed)) ∧
  (∀ (T : Table) a m o i e, T[i]? = some e → check T a m o = .allowed →
    check (T.set i { e with cfg := e.cfg &&& 0x7F#8 }) a m o = .allowed ∧
    (∀ p : Byte, p &&& 0xF8#8 = 0#8 → check (T.set i { e with cfg := e.cfg ||| p }) a m o = .allowed))

/-- Changing any entry but the matched one, its field A and address value apart, changes nothing
(44_top_level_check.md R103 (d)). -/
def Obligations.OtherEntriesBitsChangeNothing : Prop :=
  ∀ (T T' : Table) a m o,
    List.Forall₂ (fun e e' => e.addr = e'.addr ∧ e.cfg &&& 0x18#8 = e'.cfg &&& 0x18#8) T T' →
    (∀ i, matchEntry T a = some i → T[i]? = T'[i]?) → check T a m o = check T' a m o

/-! ### The machine as a whole -/

/-- Whatever is executed, every input of the block is left as it is, the table and the request (10_state.md R18, R19), and
with them its outputs (70_reset_and_hazards.md R142). That the selection, `sel` and `slot`, is left too speaks of the
model's own fields, no input of the block (log 2). -/
def Obligations.NoInstructionWritesAnInput : Prop :=
  ∀ i s t, exec i s = .next t → SameInputs s t ∧ s.outputs = t.outputs

/-- The block raises no exception: no step faults, on legal ports every step answers, and a step is refused only for a
reserved code (60_exceptions.md R125). -/
def Obligations.EveryStepOnLegalPortsAnswers : Prop :=
  (∀ s r, step s ≠ .fault r) ∧ (∀ s, LegalPorts s → ∃ t, step s = .next t) ∧
  (∀ s r, step s = .refused r → ¬ LegalPorts s ∧ ∃ p, r = .reservedPortCode p)

/-- A delivered result that follows the inputs goes on following them, whatever operation a step evaluates
(70_reset_and_hazards.md R142: every output is at all times the function of the current inputs). That a delivered result
stands in a field is the model's choice (log 1). -/
def Obligations.StepKeepsOutputsFollowingInputs : Prop :=
  ∀ s t, OutputsFollow s → step s = .next t → OutputsFollow t

/-- A step of CHECK delivers exactly what the output ports show, before the step and after it, and so makes the delivered
result follow the inputs, whatever was delivered before (70_reset_and_hazards.md R142, 44_top_level_check.md R105). That a
delivered result stands in a field is the model's choice (log 1). -/
def Obligations.CheckStepMakesOutputsFollow : Prop :=
  ∀ s t, s.sel = .check → step s = .next t →
    OutputsFollow t ∧ s.outputs = .ok t.delivered ∧ t.outputs = .ok t.delivered

/-- The result that the reset state holds as delivered is the block's function of its inputs, and is what its outputs show.
The values of the inputs, and the field, are the model's choice (log 4, log 1). -/
def Obligations.ResetOutputsFollowInputs : Prop :=
  OutputsFollow State.reset ∧ State.reset.outputs = .ok State.reset.delivered

/-- Asking twice changes nothing: a second step answers the state the first one left (20_memory.md R35). -/
def Obligations.AskingTwiceChangesNothing : Prop :=
  ∀ s t, step s = .next t → step t = .next t

/-- With equal block inputs the outputs are equal, and two evaluations give equal results, whatever earlier evaluations left
in the two states and whatever is selected (10_state.md R17). -/
def Obligations.EqualInputsGiveEqualResults : Prop :=
  ∀ s s', SameBlockInputs s s' → s.outputs = s'.outputs ∧
    ∀ t, s.sel = .check → s'.sel = .check → step s = .next t → ∃ t', step s' = .next t' ∧ t.delivered = t'.delivered

/-- The block's outputs, and what a step of CHECK delivers, do not depend on the slots from n_entries on
(10_state.md R26). -/
def Obligations.SlotsBeyondTheCountDoNotMatter : Prop :=
  ∀ s s' : State, s.nEntries = s'.nEntries →
    s.reqAddr = s'.reqAddr → s.reqMode = s'.reqMode → s.reqOp = s'.reqOp →
    (∀ i : Fin 64, i.val < s.nEntries.toNat → s.slots.get i = s'.slots.get i) →
    s.outputs = s'.outputs ∧
    (LegalPorts s → s.sel = .check → s'.sel = .check →
      ∃ t t', step s = .next t ∧ step s' = .next t' ∧ t.delivered = t'.delivered)

/-- The block as gates (64 hit comparators without a scan, a priority encoder, a selection of the configuration bits and
one expression) computes the three outputs, and what a step of CHECK delivers (42_entry_matcher.md R82,
41_range_resolver.md R68, R70, R74, R77, 70_reset_and_hazards.md R152). The mask of the NAPOT comparators, the NA4
comparators at the top of the address space and index 0 on no match rest on the spec's decisions D7, D8 and D5 (log 9,
log 10, log 12). -/
def Obligations.GatesComputeTheStep : Prop :=
  ∀ s : State, LegalPorts s → ∃ x, s.outputs = .ok x ∧
    x.allowed = gateAllowed s ∧ x.matched = gateMatched s ∧ x.matchIdx = gateMatchIdx s ∧
    (s.sel = .check → ∃ t, step s = .next t ∧ t.delivered = x)

/-! ### The host boundary -/

/-- A table of at most 64 entries and a request, driven onto the ports of any state, are the table and the request the
outputs follow at once, without a step, and the next step evaluates (45_loader_and_cli.md R123,
70_reset_and_hazards.md R142). -/
def Obligations.DrivenPortsAreEvaluated : Prop :=
  ∀ (s : State) (T : Table) a m o, T.length ≤ 64 →
    (s.drive T a m o).table = T ∧ ∃ x t, (s.drive T a m o).outputs = .ok x ∧
      x.allowed = allowedBit (check T a m o) ∧ x.matched = matchedBit (matchEntry T a) ∧
      x.matchIdx = matchIdxBits (matchEntry T a) ∧ step (s.drive T a m o) = .next t ∧ t.delivered = x

/-- The table a file forms: entry i pairs the low 8 bits of value i with value 64 + i; there are as many entries as values
past the 64th, at most 64 (45_loader_and_cli.md R109, R110, R111; the split at line 64 is decision D19, log 20). -/
def Obligations.FormedTableZipsTheTwoSections : Prop :=
  ∀ vs : List Addr, (formTable vs).length = min (vs.length - 64) 64 ∧
    ∀ i, i < (formTable vs).length → ∃ c p, vs[i]? = some c ∧ vs[64 + i]? = some p ∧
      (formTable vs)[i]? = some { cfg := c.extractLsb' 0 8, addr := p }

/-- Lines after the 128th are not looked at; a malformed line among the first 128 is a ParseError even where its value
would be discarded (45_loader_and_cli.md R112, R113; decision D20, log 20). -/
def Obligations.LoaderReadsTheFirst128Lines : Prop :=
  ∀ p (ls : List (List Char)),
    loadTable p (some ls) = loadTable p (some (ls.take 128)) ∧
    ((∃ t ∈ ls.take 128, hexLine p t = none) ↔ loadTable p (some ls) = .error .parseError)

/-- What is settled of hexadecimal text, whatever the open points. A line of 1 to 16 digits is their value, with or without
`0x`; a bare `0x` is 0; a line is none where it has a character that is no part of hexadecimal, an `x` or `X` after digits
that is not the `x` of a leading prefix, or white space between digits. An address is the value of its 1 to 16 digits
behind `0x`, and an InputFormatError where there is no prefix in it or a character that is no part of hexadecimal
(45_loader_and_cli.md R107, R115, D24, U5). Which texts count as settled is the model's reading (log 18). -/
def Obligations.HexTextsTheSpecSettles : Prop :=
  ∀ p : HostParams,
    (∀ (h : List Char) (ds : List Nat), h ≠ [] → h.length ≤ 16 → h.map hexDigit = ds.map some →
      ∃ v, hexLine p h = some v ∧ hexLine p ('0' :: 'x' :: h) = some v ∧
        parseAddress p ('0' :: 'x' :: h) = .ok v ∧ v.toNat = ds.foldl (fun n d => 16 * n + d) 0) ∧
    hexLine p ['0', 'x'] = some 0#64 ∧
    (∀ t, t.any badChar = true → hexLine p t = none ∧ parseAddress p t = .error .inputFormatError) ∧
    (∀ (pre u w : List Char) (c : Char), (pre = [] ∧ u ≠ [] ∧ u ≠ ['0']) ∨ pre = ['0', 'x'] →
      (∀ d ∈ u, (hexDigit d).isSome) → (c = 'x' ∨ c = 'X') → hexLine p (pre ++ u ++ c :: w) = none) ∧
    (∀ (pre u w : List Char) (c d : Char), (pre = [] ∧ u ≠ []) ∨ pre = ['0', 'x'] →
      (∀ d ∈ u, (hexDigit d).isSome) → spaceChar c = true → spaceChar d = false →
      hexLine p (pre ++ u ++ c :: w ++ [d]) = none) ∧
    (∀ t, ¬ HasPrefix t → parseAddress p t = .error .inputFormatError)

/-- The mode and the operation characters, of either case, and nothing else (45_loader_and_cli.md R116, R117). -/
def Obligations.ModeAndOperationCharacters : Prop :=
  ∀ t : List Char,
    (parseMode t = .ok .machine ↔ t = ['M'] ∨ t = ['m']) ∧
    (parseMode t = .ok .supervisor ↔ t = ['S'] ∨ t = ['s']) ∧
    (parseMode t = .ok .user ↔ t = ['U'] ∨ t = ['u']) ∧
    ((∀ m, parseMode t ≠ .ok m) → parseMode t = .error .validationError) ∧
    (parseOperation t = .ok .read ↔ t = ['R'] ∨ t = ['r']) ∧
    (parseOperation t = .ok .write ↔ t = ['W'] ∨ t = ['w']) ∧
    (parseOperation t = .ok .execute ↔ t = ['X'] ∨ t = ['x']) ∧
    ((∀ o, parseOperation t ≠ .ok o) → parseOperation t = .error .validationError)

/-- Whatever the order of the checks: a run fails exactly when some error applies, the kind it reports applies, it prints
nothing and its status is not 0 (60_exceptions.md R128 to R130). -/
def Obligations.ToolReportsSomeApplicableError : Prop :=
  ∀ p inp,
    ((∃ k, applicable p inp k = true) ↔ ∃ k, runTool p inp = .failed k) ∧
    (∀ k, runTool p inp = .failed k →
      applicable p inp k = true ∧ outputLine (runTool p inp) = none ∧ statusZero (runTool p inp) = false)

/-- With valid inputs a run prints the block's decision and exits with status 0, Allowed or Denied alike: what it prints
is the output `allowed` when the host drives the table and the request onto the ports, and what the step then delivers
(45_loader_and_cli.md R119, R123). -/
def Obligations.ToolPrintsTheBlocksAnswer : Prop :=
  ∀ p inp a m o T (s : State), parseAddress p inp.address = .ok a → parseMode inp.mode = .ok m →
    parseOperation inp.operation = .ok o → loadTable p inp.file = .ok T →
    statusZero (runTool p inp) = true ∧ ∃ x t, (s.drive T a m o).outputs = .ok x ∧
      step (s.drive T a m o) = .next t ∧ t.delivered = x ∧
      outputLine (runTool p inp) = some (if x.allowed then "Access allowed" else "Access denied")
end

