-- ==== Sys2Proof/Laws/Encoding.lean ====
section
/-! SUPPORT. The small lemmas of the encodings: each field of an encoded word reads back as it was written. -/

namespace Sys2Proof

@[simp] theorem decodeAMode_amodeCode (a : AMode) : decodeAMode (amodeCode a) = a := by cases a <;> rfl

@[simp] theorem decodeMode_modeCode (m : Mode) : decodeMode (modeCode m) = some m := by cases m <;> rfl

@[simp] theorem decodeOp_opCode (o : Operation) : decodeOp (opCode o) = some o := by cases o <;> rfl

/-- Every mode code but the reserved one is some mode's. -/
theorem decodeMode_eq_none_iff (c : BitVec 2) : decodeMode c = none ↔ c = 2#2 := by revert c; decide

/-- Every operation code but the reserved one is some operation's. -/
theorem decodeOp_eq_none_iff (c : BitVec 2) : decodeOp c = none ↔ c = 3#2 := by revert c; decide

@[simp] theorem req4_mode (m o : BitVec 2) : (req4 m o).extractLsb' 2 2 = m := by revert m o; decide

@[simp] theorem req4_op (m o : BitVec 2) : (req4 m o).extractLsb' 0 2 = o := by revert m o; decide

/-- The fields of an encoded configuration byte, all at once. -/
theorem encodeCfg8_fields (a : AMode) (f : CfgRest) :
    (encodeCfg8 a f).extractLsb' 3 2 = amodeCode a ∧ decodeCfgRest (encodeCfg8 a f) = f := by
  obtain ⟨l, ii, x, w, r⟩ := f
  revert l ii x w r
  cases a <;> decide

end Sys2Proof
end

