-- ==== Sys2Proof/Laws/State.lean ====
section
/-! SUPPORT. One lemma per field per update of State, each true by rfl, so that no later proof unfolds a record update. -/

namespace Sys2Proof.Machine

/-! ### withDecoded -/

@[simp] theorem State.withDecoded_slots (s : State) (c : Config) : (s.withDecoded c).slots = s.slots := rfl
@[simp] theorem State.withDecoded_nEntries (s : State) (c : Config) : (s.withDecoded c).nEntries = s.nEntries := rfl
@[simp] theorem State.withDecoded_reqAddr (s : State) (c : Config) : (s.withDecoded c).reqAddr = s.reqAddr := rfl
@[simp] theorem State.withDecoded_reqMode (s : State) (c : Config) : (s.withDecoded c).reqMode = s.reqMode := rfl
@[simp] theorem State.withDecoded_reqOp (s : State) (c : Config) : (s.withDecoded c).reqOp = s.reqOp := rfl
@[simp] theorem State.withDecoded_delivered (s : State) (c : Config) : (s.withDecoded c).delivered = s.delivered := rfl
@[simp] theorem State.withDecoded_found (s : State) (c : Config) : (s.withDecoded c).found = s.found := rfl
@[simp] theorem State.withDecoded_sel (s : State) (c : Config) : (s.withDecoded c).sel = s.sel := rfl
@[simp] theorem State.withDecoded_slot (s : State) (c : Config) : (s.withDecoded c).slot = s.slot := rfl
@[simp] theorem State.withDecoded_decoded (s : State) (c : Config) : (s.withDecoded c).decoded = c := rfl
@[simp] theorem State.withDecoded_range (s : State) (c : Config) : (s.withDecoded c).range = s.range := rfl
@[simp] theorem State.withDecoded_verdict (s : State) (c : Config) : (s.withDecoded c).verdict = s.verdict := rfl
@[simp] theorem State.withDecoded_table (s : State) (c : Config) : (s.withDecoded c).table = s.table := rfl
@[simp] theorem State.withDecoded_slotEntry (s : State) (c : Config) : (s.withDecoded c).slotEntry = s.slotEntry := rfl
@[simp] theorem State.withDecoded_slotPrev (s : State) (c : Config) : (s.withDecoded c).slotPrev = s.slotPrev := rfl
@[simp] theorem State.withDecoded_fetch (s : State) (c : Config) : (s.withDecoded c).fetch = s.fetch := rfl
@[simp] theorem State.withDecoded_outputs (s : State) (c : Config) : (s.withDecoded c).outputs = s.outputs := rfl

/-! ### withRange -/

@[simp] theorem State.withRange_slots (s : State) (r : Option Range) : (s.withRange r).slots = s.slots := rfl
@[simp] theorem State.withRange_nEntries (s : State) (r : Option Range) : (s.withRange r).nEntries = s.nEntries := rfl
@[simp] theorem State.withRange_reqAddr (s : State) (r : Option Range) : (s.withRange r).reqAddr = s.reqAddr := rfl
@[simp] theorem State.withRange_reqMode (s : State) (r : Option Range) : (s.withRange r).reqMode = s.reqMode := rfl
@[simp] theorem State.withRange_reqOp (s : State) (r : Option Range) : (s.withRange r).reqOp = s.reqOp := rfl
@[simp] theorem State.withRange_delivered (s : State) (r : Option Range) : (s.withRange r).delivered = s.delivered := rfl
@[simp] theorem State.withRange_found (s : State) (r : Option Range) : (s.withRange r).found = s.found := rfl
@[simp] theorem State.withRange_sel (s : State) (r : Option Range) : (s.withRange r).sel = s.sel := rfl
@[simp] theorem State.withRange_slot (s : State) (r : Option Range) : (s.withRange r).slot = s.slot := rfl
@[simp] theorem State.withRange_decoded (s : State) (r : Option Range) : (s.withRange r).decoded = s.decoded := rfl
@[simp] theorem State.withRange_range (s : State) (r : Option Range) : (s.withRange r).range = r := rfl
@[simp] theorem State.withRange_verdict (s : State) (r : Option Range) : (s.withRange r).verdict = s.verdict := rfl
@[simp] theorem State.withRange_table (s : State) (r : Option Range) : (s.withRange r).table = s.table := rfl
@[simp] theorem State.withRange_slotEntry (s : State) (r : Option Range) : (s.withRange r).slotEntry = s.slotEntry := rfl
@[simp] theorem State.withRange_slotPrev (s : State) (r : Option Range) : (s.withRange r).slotPrev = s.slotPrev := rfl
@[simp] theorem State.withRange_fetch (s : State) (r : Option Range) : (s.withRange r).fetch = s.fetch := rfl
@[simp] theorem State.withRange_outputs (s : State) (r : Option Range) : (s.withRange r).outputs = s.outputs := rfl

/-! ### withVerdict -/

@[simp] theorem State.withVerdict_slots (s : State) (v : AccessResult) : (s.withVerdict v).slots = s.slots := rfl
@[simp] theorem State.withVerdict_nEntries (s : State) (v : AccessResult) : (s.withVerdict v).nEntries = s.nEntries := rfl
@[simp] theorem State.withVerdict_reqAddr (s : State) (v : AccessResult) : (s.withVerdict v).reqAddr = s.reqAddr := rfl
@[simp] theorem State.withVerdict_reqMode (s : State) (v : AccessResult) : (s.withVerdict v).reqMode = s.reqMode := rfl
@[simp] theorem State.withVerdict_reqOp (s : State) (v : AccessResult) : (s.withVerdict v).reqOp = s.reqOp := rfl
@[simp] theorem State.withVerdict_delivered (s : State) (v : AccessResult) : (s.withVerdict v).delivered = s.delivered := rfl
@[simp] theorem State.withVerdict_found (s : State) (v : AccessResult) : (s.withVerdict v).found = s.found := rfl
@[simp] theorem State.withVerdict_sel (s : State) (v : AccessResult) : (s.withVerdict v).sel = s.sel := rfl
@[simp] theorem State.withVerdict_slot (s : State) (v : AccessResult) : (s.withVerdict v).slot = s.slot := rfl
@[simp] theorem State.withVerdict_decoded (s : State) (v : AccessResult) : (s.withVerdict v).decoded = s.decoded := rfl
@[simp] theorem State.withVerdict_range (s : State) (v : AccessResult) : (s.withVerdict v).range = s.range := rfl
@[simp] theorem State.withVerdict_verdict (s : State) (v : AccessResult) : (s.withVerdict v).verdict = v := rfl
@[simp] theorem State.withVerdict_table (s : State) (v : AccessResult) : (s.withVerdict v).table = s.table := rfl
@[simp] theorem State.withVerdict_slotEntry (s : State) (v : AccessResult) : (s.withVerdict v).slotEntry = s.slotEntry := rfl
@[simp] theorem State.withVerdict_slotPrev (s : State) (v : AccessResult) : (s.withVerdict v).slotPrev = s.slotPrev := rfl
@[simp] theorem State.withVerdict_fetch (s : State) (v : AccessResult) : (s.withVerdict v).fetch = s.fetch := rfl
@[simp] theorem State.withVerdict_outputs (s : State) (v : AccessResult) : (s.withVerdict v).outputs = s.outputs := rfl

/-! ### withFound -/

@[simp] theorem State.withFound_slots (s : State) (m : Option Nat) : (s.withFound m).slots = s.slots := rfl
@[simp] theorem State.withFound_nEntries (s : State) (m : Option Nat) : (s.withFound m).nEntries = s.nEntries := rfl
@[simp] theorem State.withFound_reqAddr (s : State) (m : Option Nat) : (s.withFound m).reqAddr = s.reqAddr := rfl
@[simp] theorem State.withFound_reqMode (s : State) (m : Option Nat) : (s.withFound m).reqMode = s.reqMode := rfl
@[simp] theorem State.withFound_reqOp (s : State) (m : Option Nat) : (s.withFound m).reqOp = s.reqOp := rfl
@[simp] theorem State.withFound_delivered (s : State) (m : Option Nat) : (s.withFound m).delivered = s.delivered := rfl
@[simp] theorem State.withFound_found (s : State) (m : Option Nat) : (s.withFound m).found = m := rfl
@[simp] theorem State.withFound_sel (s : State) (m : Option Nat) : (s.withFound m).sel = s.sel := rfl
@[simp] theorem State.withFound_slot (s : State) (m : Option Nat) : (s.withFound m).slot = s.slot := rfl
@[simp] theorem State.withFound_decoded (s : State) (m : Option Nat) : (s.withFound m).decoded = s.decoded := rfl
@[simp] theorem State.withFound_range (s : State) (m : Option Nat) : (s.withFound m).range = s.range := rfl
@[simp] theorem State.withFound_verdict (s : State) (m : Option Nat) : (s.withFound m).verdict = s.verdict := rfl
@[simp] theorem State.withFound_table (s : State) (m : Option Nat) : (s.withFound m).table = s.table := rfl
@[simp] theorem State.withFound_slotEntry (s : State) (m : Option Nat) : (s.withFound m).slotEntry = s.slotEntry := rfl
@[simp] theorem State.withFound_slotPrev (s : State) (m : Option Nat) : (s.withFound m).slotPrev = s.slotPrev := rfl
@[simp] theorem State.withFound_fetch (s : State) (m : Option Nat) : (s.withFound m).fetch = s.fetch := rfl
@[simp] theorem State.withFound_outputs (s : State) (m : Option Nat) : (s.withFound m).outputs = s.outputs := rfl

/-! ### withDelivered -/

@[simp] theorem State.withDelivered_slots (s : State) (o : Outputs) : (s.withDelivered o).slots = s.slots := rfl
@[simp] theorem State.withDelivered_nEntries (s : State) (o : Outputs) : (s.withDelivered o).nEntries = s.nEntries := rfl
@[simp] theorem State.withDelivered_reqAddr (s : State) (o : Outputs) : (s.withDelivered o).reqAddr = s.reqAddr := rfl
@[simp] theorem State.withDelivered_reqMode (s : State) (o : Outputs) : (s.withDelivered o).reqMode = s.reqMode := rfl
@[simp] theorem State.withDelivered_reqOp (s : State) (o : Outputs) : (s.withDelivered o).reqOp = s.reqOp := rfl
@[simp] theorem State.withDelivered_delivered (s : State) (o : Outputs) : (s.withDelivered o).delivered = o := rfl
@[simp] theorem State.withDelivered_found (s : State) (o : Outputs) : (s.withDelivered o).found = s.found := rfl
@[simp] theorem State.withDelivered_sel (s : State) (o : Outputs) : (s.withDelivered o).sel = s.sel := rfl
@[simp] theorem State.withDelivered_slot (s : State) (o : Outputs) : (s.withDelivered o).slot = s.slot := rfl
@[simp] theorem State.withDelivered_decoded (s : State) (o : Outputs) : (s.withDelivered o).decoded = s.decoded := rfl
@[simp] theorem State.withDelivered_range (s : State) (o : Outputs) : (s.withDelivered o).range = s.range := rfl
@[simp] theorem State.withDelivered_verdict (s : State) (o : Outputs) : (s.withDelivered o).verdict = s.verdict := rfl
@[simp] theorem State.withDelivered_table (s : State) (o : Outputs) : (s.withDelivered o).table = s.table := rfl
@[simp] theorem State.withDelivered_slotEntry (s : State) (o : Outputs) : (s.withDelivered o).slotEntry = s.slotEntry := rfl
@[simp] theorem State.withDelivered_slotPrev (s : State) (o : Outputs) : (s.withDelivered o).slotPrev = s.slotPrev := rfl
@[simp] theorem State.withDelivered_fetch (s : State) (o : Outputs) : (s.withDelivered o).fetch = s.fetch := rfl
@[simp] theorem State.withDelivered_outputs (s : State) (o : Outputs) : (s.withDelivered o).outputs = s.outputs := rfl

/-! ### drive -/

@[simp] theorem State.drive_slots (s : State) (T : Table) (a : Addr) (m : Mode) (o : Operation) :
    (s.drive T a m o).slots = Vector.ofFn fun i : Fin 64 => (T[i.val]?).getD (s.slots.get i) := by rw [State.drive]
@[simp] theorem State.drive_nEntries (s : State) (T : Table) (a : Addr) (m : Mode) (o : Operation) :
    (s.drive T a m o).nEntries = BitVec.ofNat 7 T.length := by rw [State.drive]
@[simp] theorem State.drive_reqAddr (s : State) (T : Table) (a : Addr) (m : Mode) (o : Operation) :
    (s.drive T a m o).reqAddr = a := by rw [State.drive]
@[simp] theorem State.drive_reqMode (s : State) (T : Table) (a : Addr) (m : Mode) (o : Operation) :
    (s.drive T a m o).reqMode = modeCode m := by rw [State.drive]
@[simp] theorem State.drive_reqOp (s : State) (T : Table) (a : Addr) (m : Mode) (o : Operation) :
    (s.drive T a m o).reqOp = opCode o := by rw [State.drive]
@[simp] theorem State.drive_delivered (s : State) (T : Table) (a : Addr) (m : Mode) (o : Operation) :
    (s.drive T a m o).delivered = s.delivered := by rw [State.drive]
@[simp] theorem State.drive_found (s : State) (T : Table) (a : Addr) (m : Mode) (o : Operation) :
    (s.drive T a m o).found = s.found := by rw [State.drive]
@[simp] theorem State.drive_sel (s : State) (T : Table) (a : Addr) (m : Mode) (o : Operation) :
    (s.drive T a m o).sel = .check := by rw [State.drive]
@[simp] theorem State.drive_slot (s : State) (T : Table) (a : Addr) (m : Mode) (o : Operation) :
    (s.drive T a m o).slot = s.slot := by rw [State.drive]
@[simp] theorem State.drive_decoded (s : State) (T : Table) (a : Addr) (m : Mode) (o : Operation) :
    (s.drive T a m o).decoded = s.decoded := by rw [State.drive]
@[simp] theorem State.drive_range (s : State) (T : Table) (a : Addr) (m : Mode) (o : Operation) :
    (s.drive T a m o).range = s.range := by rw [State.drive]
@[simp] theorem State.drive_verdict (s : State) (T : Table) (a : Addr) (m : Mode) (o : Operation) :
    (s.drive T a m o).verdict = s.verdict := by rw [State.drive]

/-! ### presentEntry -/

@[simp] theorem State.presentEntry_slots (s : State) (b : Byte) (addr : Addr) : (s.presentEntry b addr).slots = s.slots.set 0 { cfg := b, addr := addr } := rfl
@[simp] theorem State.presentEntry_nEntries (s : State) (b : Byte) (addr : Addr) : (s.presentEntry b addr).nEntries = s.nEntries := rfl
@[simp] theorem State.presentEntry_reqAddr (s : State) (b : Byte) (addr : Addr) : (s.presentEntry b addr).reqAddr = s.reqAddr := rfl
@[simp] theorem State.presentEntry_reqMode (s : State) (b : Byte) (addr : Addr) : (s.presentEntry b addr).reqMode = s.reqMode := rfl
@[simp] theorem State.presentEntry_reqOp (s : State) (b : Byte) (addr : Addr) : (s.presentEntry b addr).reqOp = s.reqOp := rfl
@[simp] theorem State.presentEntry_delivered (s : State) (b : Byte) (addr : Addr) : (s.presentEntry b addr).delivered = s.delivered := rfl
@[simp] theorem State.presentEntry_found (s : State) (b : Byte) (addr : Addr) : (s.presentEntry b addr).found = s.found := rfl
@[simp] theorem State.presentEntry_sel (s : State) (b : Byte) (addr : Addr) : (s.presentEntry b addr).sel = .rng := rfl
@[simp] theorem State.presentEntry_slot (s : State) (b : Byte) (addr : Addr) : (s.presentEntry b addr).slot = 0 := rfl
@[simp] theorem State.presentEntry_decoded (s : State) (b : Byte) (addr : Addr) : (s.presentEntry b addr).decoded = s.decoded := rfl
@[simp] theorem State.presentEntry_range (s : State) (b : Byte) (addr : Addr) : (s.presentEntry b addr).range = s.range := rfl
@[simp] theorem State.presentEntry_verdict (s : State) (b : Byte) (addr : Addr) : (s.presentEntry b addr).verdict = s.verdict := rfl

/-! ### presentRequest -/

@[simp] theorem State.presentRequest_slots (s : State) (q : BitVec 4) (a : Addr) : (s.presentRequest q a).slots = s.slots := rfl
@[simp] theorem State.presentRequest_nEntries (s : State) (q : BitVec 4) (a : Addr) : (s.presentRequest q a).nEntries = s.nEntries := rfl
@[simp] theorem State.presentRequest_reqAddr (s : State) (q : BitVec 4) (a : Addr) : (s.presentRequest q a).reqAddr = a := rfl
@[simp] theorem State.presentRequest_reqMode (s : State) (q : BitVec 4) (a : Addr) : (s.presentRequest q a).reqMode = q.extractLsb' 2 2 := rfl
@[simp] theorem State.presentRequest_reqOp (s : State) (q : BitVec 4) (a : Addr) : (s.presentRequest q a).reqOp = q.extractLsb' 0 2 := rfl
@[simp] theorem State.presentRequest_delivered (s : State) (q : BitVec 4) (a : Addr) : (s.presentRequest q a).delivered = s.delivered := rfl
@[simp] theorem State.presentRequest_found (s : State) (q : BitVec 4) (a : Addr) : (s.presentRequest q a).found = s.found := rfl
@[simp] theorem State.presentRequest_sel (s : State) (q : BitVec 4) (a : Addr) : (s.presentRequest q a).sel = .check := rfl
@[simp] theorem State.presentRequest_slot (s : State) (q : BitVec 4) (a : Addr) : (s.presentRequest q a).slot = s.slot := rfl
@[simp] theorem State.presentRequest_decoded (s : State) (q : BitVec 4) (a : Addr) : (s.presentRequest q a).decoded = s.decoded := rfl
@[simp] theorem State.presentRequest_range (s : State) (q : BitVec 4) (a : Addr) : (s.presentRequest q a).range = s.range := rfl
@[simp] theorem State.presentRequest_verdict (s : State) (q : BitVec 4) (a : Addr) : (s.presentRequest q a).verdict = s.verdict := rfl

end Sys2Proof.Machine
end

