-- ==== Sys2Proof/Laws/Ops.lean ====
section
/-! SUPPORT. One lemma per shared operation that says everything it can do, to be cited instead of unfolding it. -/

namespace Sys2Proof.Machine

/-! ### Reading the table ports -/

theorem countOk_iff (n : BitVec 7) : countOk n = true ↔ n.toNat ≤ 64 := by
  simp [countOk, maxEntries]

/-- Reading the table answers next exactly on a legal count, and then with the table of the ports. -/
theorem withTable_next_iff (s t : State) (k : Table → State) :
    withTable s k = .next t ↔ countOk s.nEntries = true ∧ t = k s.table := by
  unfold withTable
  split <;> rename_i h <;> simp [h, eq_comm]

/-- Reading the table is refused exactly on a reserved count. -/
theorem withTable_refused_iff (s : State) (k : Table → State) (r : Refusal) :
    withTable s k = .refused r ↔ countOk s.nEntries = false ∧ r = .reservedPortCode .nEntries := by
  unfold withTable
  split <;> rename_i h <;> simp [h, eq_comm]

/-- Reading the table never faults. -/
theorem withTable_ne_fault (s : State) (k : Table → State) (r : Fault) : withTable s k ≠ .fault r :=
  nomatch r

/-- The table of the ports is never longer than the count. -/
theorem State.table_length_le (s : State) : s.table.length ≤ s.nEntries.toNat := by
  simp only [State.table, List.length_take]
  omega

/-- Entry i of the table is slot i, for i below the count. -/
theorem State.table_getElem? (s : State) (i : Fin 64) (h : i.val < s.nEntries.toNat) :
    s.table[i.val]? = some (s.slots.get i) := by
  simp [State.table, h, Vector.get]

/-! ### The meanings -/

/-- CHECK answers next exactly on a legal count, and then with the evaluation delivered. -/
theorem evalCheck_next_iff (o : Operation) (m : Mode) (a : Addr) (s t : State) :
    evalCheck o m a s = .next t ↔
      countOk s.nEntries = true ∧ t = s.withDelivered (evaluate s.table a m o) :=
  withTable_next_iff ..

/-- MATCH answers next exactly on a legal count, and then with the index found. -/
theorem execMatchScan_next_iff (a : Addr) (s t : State) :
    execMatchScan a s = .next t ↔ countOk s.nEntries = true ∧ t = s.withFound (matchEntry s.table a) :=
  withTable_next_iff ..

/-- The three CHECK forms are one evaluation with the operation they name. -/
theorem exec_checkInstr (o : Operation) (m : Mode) (a : Addr) (s : State) :
    exec (checkInstr m a o) s = evalCheck o m a s := by
  cases o <;> rfl

/-! ### The step -/

/-- A step that answers next ran the instruction the presented word decodes to. -/
theorem step_next_iff (s t : State) : step s = .next t ↔ ∃ i, decode s.fetch = .ok i ∧ exec i s = .next t := by
  unfold step
  cases decode s.fetch <;> simp

/-- A step is refused for the port its decoder names, or by the instruction. -/
theorem step_refused_iff (s : State) (r : Refusal) :
    step s = .refused r ↔
      (∃ p, decode s.fetch = .error p ∧ r = .reservedPortCode p) ∨ ∃ i, decode s.fetch = .ok i ∧ exec i s = .refused r := by
  unfold step
  cases decode s.fetch <;> simp [eq_comm]

end Sys2Proof.Machine
end

