-- ==== Sys2Proof/Laws/Resolver.lean ====
section
/-! SUPPORT. What tz1, lowmask, the resolver and containment are, said once. -/

namespace Sys2Proof.Machine

/-- Containment as an inequality on naturals. -/
theorem Range.contains_iff (r : Range) (a : Addr) :
    r.contains a = true ↔ r.start.toNat ≤ a.toNat ∧ a.toNat < r.stop.toNat := by
  simp [Range.contains]

theorem tz1_le (v : Addr) : tz1 v ≤ 64 := by
  simpa [tz1] using (List.takeWhile_prefix (fun i => v.getLsbD i) (l := List.range 64)).length_le

/-- The prefix that takeWhile keeps of an initial segment: every kept index satisfies the test, the next one does not. -/
theorem takeWhile_range_length (p : Nat → Bool) (n : Nat) :
    (∀ i, i < ((List.range n).takeWhile p).length → p i = true) ∧
    (((List.range n).takeWhile p).length < n → p ((List.range n).takeWhile p).length = false) := by
  have happ := List.takeWhile_append_dropWhile (p := p) (l := List.range n)
  have hidx : ∀ i (h : i < ((List.range n).takeWhile p ++ (List.range n).dropWhile p).length),
      ((List.range n).takeWhile p ++ (List.range n).dropWhile p)[i] = i := by
    intro i h
    simp only [happ, List.getElem_range]
  constructor
  · intro i hi
    have hval := hidx i (by rw [List.length_append]; omega)
    rw [List.getElem_append_left hi] at hval
    simpa [hval] using List.mem_takeWhile_imp (List.getElem_mem hi)
  · intro hlt
    have hlen := congrArg List.length happ
    rw [List.length_append, List.length_range] at hlen
    have hpos : 0 < ((List.range n).dropWhile p).length := by omega
    have hval := hidx ((List.range n).takeWhile p).length (by rw [List.length_append]; omega)
    rw [List.getElem_append_right (Nat.le_refl _)] at hval
    have hhead := List.head_dropWhile_not p (List.ne_nil_of_length_pos hpos)
    simp only [List.head_eq_getElem, Nat.sub_self] at hhead hval
    rwa [hval] at hhead

/-- Below tz1 every bit is 1. -/
theorem getLsbD_of_lt_tz1 {v : Addr} {i : Nat} (h : i < tz1 v) : v.getLsbD i = true :=
  (takeWhile_range_length (fun i => v.getLsbD i) 64).1 i h

/-- The bit at tz1 is 0, where there is one. -/
theorem getLsbD_tz1 {v : Addr} (h : tz1 v < 64) : v.getLsbD (tz1 v) = false :=
  (takeWhile_range_length (fun i => v.getLsbD i) 64).2 h

/-- The bits of a low mask. -/
theorem getLsbD_lowmask (t i : Nat) : (lowmask t).getLsbD i = (decide (i < 64) && decide (i < t)) := by
  simp [lowmask, BitVec.getLsbD_ofNat, Nat.testBit_two_pow_sub_one]

theorem toNat_lowmask {t : Nat} (h : t ≤ 64) : (lowmask t).toNat = 2 ^ t - 1 := by
  have : 2 ^ t ≤ 2 ^ 64 := Nat.pow_le_pow_right (by decide) h
  have : 0 < 2 ^ t := Nat.two_pow_pos t
  simp only [lowmask, BitVec.toNat_ofNat]
  omega

/-- The resolver answers a range for every mode but Off, and the range of that mode. -/
theorem resolve_eq_some_iff (a : AMode) (addr prev : Addr) (r : Range) :
    resolve a addr prev = some r ↔
      (a = .tor ∧ r = rngTor addr prev) ∨ (a = .na4 ∧ r = rngNa4 addr) ∨ (a = .napot ∧ r = rngNapot addr) := by
  cases a <;> simp [resolve, eq_comm]

end Sys2Proof.Machine
end

