-- ==== Sys2Proof/Laws/Matcher.lean ====
section
/-! SUPPORT. What the scan can answer. -/

namespace Sys2Proof.Machine

/-- The predecessor value of an entry after the first. -/
@[simp] theorem prevAddr_cons_succ (e : PmpEntry) (T : Table) (i : Nat) :
    prevAddr (e :: T) (i + 1) = if i = 0 then e.addr else prevAddr T i := by
  cases i <;> simp [prevAddr]

/-- Where the scan finds an entry: the index counts from the scan's first, the entry stands there, it hits with its
predecessor's value, and no entry before it does. -/
theorem scanFrom_eq_some {res : AMode → Addr → Addr → Option Range} {a prev : Addr} {i k : Nat} {T : Table} {e : PmpEntry}
    (h : scanFrom res a prev i T = some (k, e)) :
    i ≤ k ∧ T[k - i]? = some e ∧ entryHitWith res e (if k = i then prev else prevAddr T (k - i)) a = true := by
  induction T generalizing prev i with
  | nil => simp [scanFrom] at h
  | cons x T ih =>
    rw [scanFrom] at h
    split at h
    · obtain ⟨rfl, rfl⟩ : i = k ∧ x = e := by simpa using h
      simpa
    · obtain ⟨h1, h2, h3⟩ := ih h
      obtain ⟨d, rfl⟩ : ∃ d, k = i + 1 + d := ⟨k - (i + 1), by omega⟩
      have e1 : i + 1 + d - i = d + 1 := by omega
      have e2 : i + 1 + d - (i + 1) = d := by omega
      rw [e2] at h2 h3
      refine ⟨by omega, by simpa [e1] using h2, ?_⟩
      rw [e1, prevAddr_cons_succ, if_neg (by omega)]
      by_cases hd : d = 0
      · simpa [hd] using h3
      · rw [if_neg hd]
        rwa [if_neg (by omega)] at h3

/-- The scan finds nothing only where its first entry does not hit and the rest finds nothing. -/
theorem scanFrom_cons_eq_none_iff (res : AMode → Addr → Addr → Option Range) (a prev : Addr) (i : Nat) (e : PmpEntry)
    (T : Table) :
    scanFrom res a prev i (e :: T) = none ↔
      entryHitWith res e prev a = false ∧ scanFrom res a e.addr (i + 1) T = none := by
  rw [scanFrom]
  split <;> simp_all

/-- An entry that hits is not Off. -/
theorem entryHitWith_resolve_ne_off {e : PmpEntry} {prev a : Addr} (h : entryHitWith resolve e prev a = true) :
    (cfgdec e.cfg).a ≠ .off := by
  intro h0
  simp [entryHitWith, resolve, h0] at h

end Sys2Proof.Machine
end

