-- ==== Sys2Proof/Laws/PerInstr.lean ====
section
/-! SUPPORT. The per-instruction family RowMatch: an instruction's encoded word has, under the mask of its row of
spec/opcode_table.json, the row's match. -/

namespace Sys2Proof.Laws

/-- The word of an encoded instruction that its row's mask applies to; rows of format NONE have no selecting bits. -/
def selectingWord : InputWord → BitVec 8
  | .cfg8 b _ _ => b
  | .req4 q _ => q.setWidth 8
  | .cfgdec _ => 0#8
  | .matchScan _ => 0#8
  | .perm _ _ => 0#8

/-- The mask of an instruction's row, and its match. -/
def row : Instr → BitVec 8 × BitVec 8
  | .rngOff _ => (0x18#8, 0x00#8)
  | .rngTor _ _ _ => (0x18#8, 0x08#8)
  | .rngNa4 _ _ => (0x18#8, 0x10#8)
  | .rngNapot _ _ => (0x18#8, 0x18#8)
  | .checkR _ _ => (0x3#8, 0x0#8)
  | .checkW _ _ => (0x3#8, 0x1#8)
  | .checkX _ _ => (0x3#8, 0x2#8)
  | .cfgdec _ => (0x0#8, 0x0#8)
  | .matchScan _ => (0x0#8, 0x0#8)
  | .perm _ _ _ => (0x0#8, 0x0#8)

/-- The encoded word under the row's mask is the row's match. -/
def RowMatch.Statement (i : Instr) : Prop := selectingWord (encode i) &&& (row i).1 = (row i).2

/-- The selecting bits of an encoded configuration byte are those of its field A. -/
theorem encodeCfg8_mask (a : AMode) (f : CfgRest) :
    encodeCfg8 a f &&& 0x18#8 = (amodeCode a).setWidth 8 <<< 3 := by
  obtain ⟨l, ii, x, w, r⟩ := f
  revert l ii x w r
  cases a <;> decide

theorem RowMatch.rngOff (f : CfgRest) : RowMatch.Statement (.rngOff f) := encodeCfg8_mask .off f
theorem RowMatch.rngTor (f : CfgRest) (addr prev : Addr) : RowMatch.Statement (.rngTor f addr prev) :=
  encodeCfg8_mask .tor f
theorem RowMatch.rngNa4 (f : CfgRest) (addr : Addr) : RowMatch.Statement (.rngNa4 f addr) := encodeCfg8_mask .na4 f
theorem RowMatch.rngNapot (f : CfgRest) (addr : Addr) : RowMatch.Statement (.rngNapot f addr) :=
  encodeCfg8_mask .napot f
theorem RowMatch.checkR (m : Mode) (a : Addr) : RowMatch.Statement (.checkR m a) := by
  unfold RowMatch.Statement; simp only [selectingWord, encode, row]; cases m <;> decide
theorem RowMatch.checkW (m : Mode) (a : Addr) : RowMatch.Statement (.checkW m a) := by
  unfold RowMatch.Statement; simp only [selectingWord, encode, row]; cases m <;> decide
theorem RowMatch.checkX (m : Mode) (a : Addr) : RowMatch.Statement (.checkX m a) := by
  unfold RowMatch.Statement; simp only [selectingWord, encode, row]; cases m <;> decide
theorem RowMatch.cfgdec (b : Byte) : RowMatch.Statement (.cfgdec b) := by
  unfold RowMatch.Statement; simp only [selectingWord, encode, row]; decide
theorem RowMatch.matchScan (a : Addr) : RowMatch.Statement (.matchScan a) := by
  unfold RowMatch.Statement; simp only [selectingWord, encode, row]; decide
theorem RowMatch.perm (c : Config) (m : Mode) (o : Operation) : RowMatch.Statement (.perm c m o) := by
  unfold RowMatch.Statement; simp only [selectingWord, encode, row]; decide

end Sys2Proof.Laws
end

