-- ==== Sys2Proof/Laws/Step.lean ====
section
/-! SUPPORT. What one step can do, said once. -/

namespace Sys2Proof.Machine

/-- A request word decodes to the mode and the operation its two codes decode to. -/
theorem decodeReq4_eq_ok_iff (q r : BitVec 2) (m : Mode) (o : Operation) :
    decodeReq4 (req4 q r) = .ok (m, o) ↔ decodeMode q = some m ∧ decodeOp r = some o := by
  simp only [decodeReq4, req4_mode, req4_op]
  cases decodeMode q <;> cases decodeOp r <;> simp

/-- Legal ports carry some mode's code and some operation's. -/
theorem LegalPorts.codes {s : State} (h : LegalPorts s) :
    ∃ m o, decodeMode s.reqMode = some m ∧ decodeOp s.reqOp = some o := by
  obtain ⟨-, h1, h2⟩ := h
  have hm : decodeMode s.reqMode ≠ none := by simpa [decodeMode_eq_none_iff, modeCodeOk] using h1
  have ho : decodeOp s.reqOp ≠ none := by simpa [decodeOp_eq_none_iff, opCodeOk] using h2
  obtain ⟨m, hm⟩ := Option.ne_none_iff_exists'.1 hm
  obtain ⟨o, ho⟩ := Option.ne_none_iff_exists'.1 ho
  exact ⟨m, o, hm, ho⟩

/-- The outputs are specified exactly where the three ports with reserved codes carry legal ones, and are then the
evaluation of what the ports carry. -/
theorem State.outputs_eq_ok_iff (s : State) (x : Outputs) :
    s.outputs = .ok x ↔ countOk s.nEntries = true ∧ ∃ m o, decodeMode s.reqMode = some m ∧ decodeOp s.reqOp = some o ∧
      x = evaluate s.table s.reqAddr m o := by
  unfold State.outputs
  cases hd : decodeReq4 (req4 s.reqMode s.reqOp) with
  | error p =>
    have h : ∀ m o, ¬ (decodeMode s.reqMode = some m ∧ decodeOp s.reqOp = some o) := fun m o h => by
      rw [(decodeReq4_eq_ok_iff ..).2 h] at hd; cases hd
    simp only [reduceCtorEq, false_iff]
    rintro ⟨-, m, o, hm, ho, -⟩
    exact h m o ⟨hm, ho⟩
  | ok mo =>
    obtain ⟨hm, ho⟩ := (decodeReq4_eq_ok_iff ..).1 hd
    cases h : countOk s.nEntries <;> simp [hm, ho, eq_comm]

/-- A step that answers next is one of five evaluations, each of the ports its selection presents: CHECK delivers the
result, MATCH the index found, CFGDEC, RNG and PERM their own answers. -/
theorem step_cases {s t : State} (h : step s = .next t) :
    (s.sel = .check ∧ ∃ m o, decodeMode s.reqMode = some m ∧ decodeOp s.reqOp = some o ∧ countOk s.nEntries = true ∧
      t = s.withDelivered (evaluate s.table s.reqAddr m o)) ∨
    (s.sel = .matchScan ∧ countOk s.nEntries = true ∧ t = s.withFound (matchEntry s.table s.reqAddr)) ∨
    (s.sel = .cfgdec ∧ t = s.withDecoded (cfgdec s.slotEntry.cfg)) ∨
    (s.sel = .rng ∧ t = s.withRange (resolve (cfgdec s.slotEntry.cfg).a s.slotEntry.addr s.slotPrev)) ∨
    (s.sel = .perm ∧ ∃ m o, decodeMode s.reqMode = some m ∧ decodeOp s.reqOp = some o ∧
      t = s.withVerdict (perm (cfgdec s.slotEntry.cfg) m o)) := by
  obtain ⟨i, hi, he⟩ := (step_next_iff _ _).1 h
  cases hs : s.sel <;> simp only [State.fetch, hs, decode] at hi
  case check =>
    cases hd : decodeReq4 (req4 s.reqMode s.reqOp) with
    | error p => simp [hd] at hi
    | ok mo =>
      obtain ⟨m, o⟩ := mo
      obtain rfl : checkInstr m s.reqAddr o = i := by simpa [hd] using hi
      rw [exec_checkInstr, evalCheck_next_iff] at he
      obtain ⟨hm, ho⟩ := (decodeReq4_eq_ok_iff ..).1 hd
      exact .inl ⟨rfl, m, o, hm, ho, he⟩
  case rng =>
    cases hi
    refine .inr (.inr (.inr (.inl ⟨rfl, ?_⟩)))
    unfold decodeRng at he
    cases ha : decodeAMode (s.slotEntry.cfg.extractLsb' 3 2) <;> simp only [ha] at he <;> cases he <;>
      simp [cfgdec, ha, resolve]
  case cfgdec => cases hi; cases he; simp
  case matchScan => cases hi; exact .inr (.inl ⟨rfl, (execMatchScan_next_iff _ _ _).1 he⟩)
  case perm =>
    cases hd : decodeReq4 (req4 s.reqMode s.reqOp) with
    | error p => simp [hd] at hi
    | ok mo =>
      obtain ⟨m, o⟩ := mo
      obtain rfl : Instr.perm (cfgdec s.slotEntry.cfg) m o = i := by simpa [hd] using hi
      obtain ⟨hm, ho⟩ := (decodeReq4_eq_ok_iff ..).1 hd
      cases he
      exact .inr (.inr (.inr (.inr ⟨rfl, m, o, hm, ho, rfl⟩)))

end Sys2Proof.Machine
end

