-- ==== Sys2Proof/Tests/Slice0.lean ====
section
/-! SUPPORT. The model's own tests: the words written out from 30_encoding.md, at most two vectors of 95_test_vectors.md per
operation, a refusal for each check of WellFormed.lean, and a witness for the hypotheses of each statement, clause by clause. -/

open Sys2Proof Sys2Proof.Machine

namespace Sys2Proof.Tests

/-- A state that presents a table and a request. -/
def st (T : Table) (a : Addr) (m : Mode) (o : Operation) : State := State.reset.drive T a m o

/-- The state a step or an instruction answers, if it answers one. -/
def nextOf : Host.Outcome State Fault Refusal → Option State
  | .next t => some t
  | .fault _ => none
  | .refused _ => none

/-- The reason it is refused for, if it is. -/
def refusalOf : Host.Outcome State Fault Refusal → Option Refusal
  | .next _ => none
  | .fault _ => none
  | .refused r => some r

/-- What the output ports show, and what one step delivers: allowed, matched, match_idx. -/
def outputs (s : State) : Option (Bool × Bool × Nat) × Option (Bool × Bool × Nat) :=
  let f (x : Outputs) := (x.allowed, x.matched, x.matchIdx.toNat)
  (s.outputs.toOption.map f, (nextOf (step s)).map fun t => f t.delivered)

/-- Both show the same. -/
def both (x : Bool × Bool × Nat) : Option (Bool × Bool × Nat) × Option (Bool × Bool × Nat) := (some x, some x)

/-- The bounds of the range after one instruction. -/
def rangeOf (i : Instr) : Option (Option (Nat × Nat)) :=
  (nextOf (exec i State.reset)).map fun t => t.range.map fun r => (r.start.toNat, r.stop.toNat)

/-- No permission bit, no lock, ignored bits clear. -/
def bare : CfgRest := { l := false, ii := 0#2, x := false, w := false, r := false }

/-- Program P1 of 95_test_vectors.md. -/
def p1 : Table := [⟨0x0F#8, 0x1000#64⟩, ⟨0x0D#8, 0x2000#64⟩, ⟨0x00#8, 0x3000#64⟩, ⟨0x89#8, 0x4000#64⟩,
  ⟨0x13#8, 0x5002#64⟩, ⟨0x9C#8, 0x8007#64⟩]

/-- Program P3 of 95_test_vectors.md: entries that never match. -/
def p3 : Table := [⟨0x00#8, 0x100#64⟩, ⟨0x0B#8, 0x200#64⟩, ⟨0x1F#8, 0x0#64⟩, ⟨0x09#8, 0x80#64⟩, ⟨0x0F#8, 0x80#64⟩,
  ⟨0x0C#8, 0x40#64⟩]

/-- The table of scenario S2 of 95_test_vectors.md. -/
def s2 : Table := [⟨0x9F#8, 0x20000007#64⟩]

/-! ### Ill-formed terms are refused (WellFormed.lean) -/

theorem test_modeCodeOk_refuses : modeCodeOk 0b10#2 = false := by decide
theorem test_opCodeOk_refuses : opCodeOk 0b11#2 = false := by decide
theorem test_countOk_refuses : countOk 65#7 = false ∧ countOk 127#7 = false ∧ countOk 64#7 = true := by decide
theorem test_tableOk_refuses : tableOk (List.replicate 65 ()) = false ∧ tableOk (List.replicate 64 ()) = true := by decide
theorem test_instr_wf : Instr.wf (.perm (cfgdec 0xFF#8) .user .read) = true := by decide

/-! ### Words written out bit by bit (30_encoding.md R43, R46, R49, R50) -/

-- L=1 ii=11 AA=00 X=0 W=1 R=0
theorem test_decode_rngOff : decode (.cfg8 0b11100010#8 0x100#64 0#64) =
    .ok (.rngOff { l := true, ii := 3#2, x := false, w := true, r := false }) := by decide
-- L=0 ii=00 AA=01 X=1 W=1 R=1
theorem test_decode_rngTor : decode (.cfg8 0b00001111#8 0x20#64 0x10#64) =
    .ok (.rngTor { l := false, ii := 0#2, x := true, w := true, r := true } 0x20#64 0x10#64) := by decide
-- L=0 ii=01 AA=10 X=0 W=1 R=1
theorem test_decode_rngNa4 : decode (.cfg8 0b00110011#8 0x5002#64 0x4000#64) =
    .ok (.rngNa4 { l := false, ii := 1#2, x := false, w := true, r := true } 0x5002#64) := by decide
-- L=1 ii=00 AA=11 X=1 W=0 R=0
theorem test_decode_rngNapot : decode (.cfg8 0b10011100#8 0x8007#64 0x5002#64) =
    .ok (.rngNapot { l := true, ii := 0#2, x := true, w := false, r := false } 0x8007#64) := by decide
-- MM=01 op=00
theorem test_decode_checkR : decode (.req4 0b0100#4 0x9000#64) = .ok (.checkR .supervisor 0x9000#64) := by decide
-- MM=11 op=01
theorem test_decode_checkW : decode (.req4 0b1101#4 0x3000#64) = .ok (.checkW .machine 0x3000#64) := by decide
-- MM=00 op=10
theorem test_decode_checkX : decode (.req4 0b0010#4 0x8007#64) = .ok (.checkX .user 0x8007#64) := by decide
theorem test_decode_cfgdec : decode (.cfgdec 0b10011111#8) = .ok (.cfgdec 0x9F#8) := by decide
theorem test_decode_matchScan : decode (.matchScan 0x1080#64) = .ok (.matchScan 0x1080#64) := by decide
-- L=1 ii=11 AA=10 X=0 W=0 R=1, MM=01 op=01: the ignored bits do not reach the Config
theorem test_decode_perm : decode (.perm 0b11110001#8 0b0101#4) =
    .ok (.perm { r := true, w := false, x := false, a := .na4, l := true } .supervisor .write) := by decide
theorem test_decode_refuses_mode : decode (.req4 0b1000#4 0#64) = .error .reqMode := by decide
theorem test_decode_refuses_op : decode (.req4 0b0011#4 0#64) = .error .reqOp := by decide
/-- The opcode table's own words (the match of each row, and CHECK.X's with mode Machine). -/
theorem test_table_words :
    decodeTableWord 8 0x08 = some (.rngTor bare 0#64 0#64) ∧ decodeTableWord 8 0x10 = some (.rngNa4 bare 0#64) ∧
    decodeTableWord 8 0x18 = some (.rngNapot bare 0#64) ∧ decodeTableWord 8 0x60 = some (.rngOff { bare with ii := 3#2 }) ∧
    decodeTableWord 4 0x0 = some (.checkR .user 0#64) ∧ decodeTableWord 8 0x1 = some (.checkW .user 0#64) ∧
    decodeTableWord 8 0xE = some (.checkX .machine 0#64) := by decide
theorem test_fetch_word_runs : step (State.reset.withFetchWord 8 0x08) =
    exec (.rngTor bare 0#64 0#64) (State.reset.withFetchWord 8 0x08) := rfl

/-! ### The operations on vectors of 95_test_vectors.md -/

-- section 2.1, bytes 0x9D and 0x7F
theorem test_cfgdec : (cfgdec 0x9D#8, cfgdec 0x7F#8) =
    ({ r := true, w := false, x := true, a := .napot, l := true },
     { r := true, w := true, x := true, a := .napot, l := false }) := by decide
-- S1
theorem test_rngOff : rangeOf (.rngOff bare) = some none := by decide
-- section 2.2
theorem test_rngTor : rangeOf (.rngTor bare 0x9000#64 0x8007#64) = some (some (0x8007, 0x9000)) := by decide
theorem test_rngTor_max : (rngTor MAX 0#64).contains MAX = false ∧ (rngTor MAX 0#64).contains 0xFFFFFFFFFFFFFFFE#64 = true := by
  decide
-- section 2.3
theorem test_rngNa4 : rangeOf (.rngNa4 bare 0x5002#64) = some (some (0x5000, 0x5004)) := by decide
theorem test_rngNa4_top : rangeOf (.rngNa4 bare 0xFFFFFFFFFFFFFFFE#64) = some (some (0xFFFFFFFFFFFFFFFC, 2 ^ 64)) := by
  decide
-- section 2.4: the source's example, an even value, the degenerate value 0
theorem test_rngNapot : rangeOf (.rngNapot bare 0x20000007#64) = some (some (0x20000000, 0x20000008)) := by decide
theorem test_rngNapot_even : rangeOf (.rngNapot bare 0x6#64) = some (some (0, 8)) ∧ rangeOf (.rngNapot bare 0#64) = some (some (0, 0)) := by
  decide
-- section 2.5, OVL: first match wins; P3: inert entries are passed over
theorem test_matchScan : matchEntry [⟨0x19#8, 0x10FF#64⟩, ⟨0x1F#8, 0x1FFF#64⟩] 0x1080#64 = some 0 ∧
    matchEntry p3 0x7F#64 = some 3 ∧ matchEntry p3 0x80#64 = none := by decide
-- P1's address 0x3000: entry 3, TOR chained from an Off entry
theorem test_exec_matchScan : (nextOf (exec (.matchScan 0x3000#64) (st p1 0#64 .user .read))).map
    (fun t => t.found) = some (some 3) := by decide
-- R91's example, and S5
theorem test_perm : perm (cfgdec 0x9D#8) .machine .write = .denied ∧ perm (cfgdec 0x18#8) .machine .write = .allowed := by decide
-- S2 and P1
theorem test_checkR : outputs (st s2 0x20000004#64 .user .read) = both (true, true, 0) ∧
    outputs (st s2 0x20000008#64 .user .read) = both (false, false, 0) := by decide
-- P1: locked entry 3 binds Machine; unlocked entry 1 does not
theorem test_checkW : outputs (st p1 0x3000#64 .machine .write) = both (false, true, 3) ∧
    outputs (st p1 0x1000#64 .machine .write) = both (true, true, 1) := by decide
theorem test_checkX : outputs (st p1 0x8007#64 .user .execute) = both (true, true, 5) ∧
    outputs (st p1 0x5003#64 .user .execute) = both (false, true, 4) := by decide
theorem test_gates : let s := st p1 0x8007#64 .user .execute
    (gateAllowed s, gateMatched s, gateMatchIdx s) = (true, true, 5#6) := by decide

/-! ### The host boundary on P4's file (R124, P4) -/

/-- Every open text has a value, and the checks stand in the order of R118. -/
def params : HostParams where
  lineOpen := fun _ => some 7#64
  addrOpen := fun _ => some 7#64
  order := HostCheck.all
  orderPerm := List.Perm.refl _

/-- P4's file cut to 67 lines: three configuration lines, 61 bare prefixes, three address lines. -/
def p4File : List (List Char) :=
  [['0', 'x', '0', 'F'], ['0', 'x', '1', 'B'], ['0', 'x', '9', 'C']] ++ List.replicate 61 ['0', 'x'] ++
    [['0', 'x', '1', '0', '0', '0'], ['2', '0', 'F', 'F'], ['0', 'x', '8', '0', '0', '7']]

def p4Input : HostInput :=
  { file := some p4File, address := ['0', 'x', '8', '0', '0', '4'], mode := ['m'], operation := ['R'] }

theorem test_loadTable : loadTable params (some p4File) =
    .ok [⟨0x0F#8, 0x1000#64⟩, ⟨0x1B#8, 0x20FF#64⟩, ⟨0x9C#8, 0x8007#64⟩] := rfl
/-- Texts that no reading admits, and texts of the open shapes (R107, R115, U5). -/
theorem test_hexLine_none : hexLine params ['1', 'x', '_', '2'] = none ∧ hexLine params ['9', ' ', 'F'] = none ∧
    hexLine params ['0', 'x', '0', 'x', '9'] = none ∧ hexLine params [' ', '9', ' '] = some 7#64 ∧
    hexLine params [] = some 7#64 ∧ hexLine params ['0', 'X', '9'] = some 7#64 ∧
    hexLine params (List.replicate 17 '9') = some 7#64 ∧ hexLine params (List.replicate 16 'f') = some MAX := by decide
theorem test_parseAddress_noPrefix : parseAddress params ['2', '0', '1', '0', '_'] = .error .inputFormatError ∧
    parseAddress params ['+', '2', '0'] = .error .inputFormatError ∧ parseAddress params [] = .error .inputFormatError ∧
    parseAddress params ['2', '0', ' '] = .error .inputFormatError ∧
    parseAddress params ['-', '0', 'x', '2'] = .ok 7#64 ∧ parseAddress params ['0', 'x'] = .ok 7#64 := ⟨rfl, rfl, rfl, rfl, rfl, rfl⟩
theorem test_runTool_prints : outputLine (runTool params p4Input) = some "Access denied" := by decide
theorem test_runTool_fails : runTool params { p4Input with address := ['2', '0', '1', '0'] } = .failed .inputFormatError ∧
    runTool params { p4Input with address := ['2', '0', '1', '0', '_'] } = .failed .inputFormatError ∧
    runTool params { p4Input with mode := ['H'] } = .failed .validationError ∧
    runTool params { p4Input with file := none } = .failed .ioError ∧
    runTool params { p4Input with file := some [['0', 'x', 'Z', 'Z']] } = .failed .parseError := by decide

/-! ### Witnesses: a state and operands that meet each statement's hypotheses, clause by clause -/

theorem witness_FieldASelectsTheRangeComputation : 0x67#8 &&& 0x18#8 = 0x00#8 ∧ 0x08#8 &&& 0x18#8 = 0x08#8 ∧
    0x97#8 &&& 0x18#8 = 0x10#8 ∧ 0xFF#8 &&& 0x18#8 = 0x18#8 := by decide

theorem witness_RequestWordsSelectTheCheckForm : (3#2 : BitVec 2) ≠ 2#2 := by decide

theorem witness_EncodeOfDecodeKeepsByteAndRequest : decode (.req4 0b1110#4 MAX) = .ok (.checkX .machine MAX) := by decide

theorem witness_ReservedPortCodesAreRefused :
    refusalOf (step { State.reset with reqMode := 2#2, reqOp := 3#2 }) = some (.reservedPortCode .reqMode) ∧
    refusalOf (step { State.reset with sel := .perm, reqOp := 3#2 }) = some (.reservedPortCode .reqOp) ∧
    refusalOf (step { State.reset with nEntries := 65#7 }) = some (.reservedPortCode .nEntries) ∧
    refusalOf (step { State.reset with sel := .matchScan, nEntries := 127#7 }) = some (.reservedPortCode .nEntries) := by
  decide

theorem witness_StepRunsTheDecodedInstruction : decode State.reset.fetch = .ok (.checkR .user 0#64) := by decide

/-- P1 driven, the stage operations presented to a slot. -/
def atSlot (sel : Stage) (i : Fin 64) : State := { st p1 0x8007#64 .machine .execute with sel := sel, slot := i }

theorem witness_StepPresentsThePorts :
    ((atSlot .check 0).sel = .check ∧ (atSlot .perm 5).sel = .perm ∧ decodeMode (atSlot .perm 5).reqMode = some .machine ∧
      decodeOp (atSlot .perm 5).reqOp = some .execute) ∧
    (atSlot .matchScan 0).sel = .matchScan ∧ (atSlot .cfgdec 63).sel = .cfgdec ∧
    ((atSlot .rng 0).sel = .rng ∧ (atSlot .rng 0).slot = 0) ∧
    ((atSlot .rng 1).slot = 1 ∧ (0 : Fin 64).val + 1 = (1 : Fin 64).val) ∧
    ((atSlot .rng 63).slot = 63 ∧ (62 : Fin 64).val + 1 = (63 : Fin 64).val) := by decide

theorem witness_RngTorIsPrevToAddr : (0x80#64 : Addr).toNat ≤ (0x80#64 : Addr).toNat := by decide

theorem witness_Na4ContainsByUpperBits : 0xFFFFFFFFFFFFFFFC ≤ (0xFFFFFFFFFFFFFFFC#64 : Addr).toNat := by decide

theorem witness_NapotRangeByShape :
    (0x20000007#64 : Addr).toNat % 2 ^ (0 + 3 + 1) = 2 ^ (0 + 3) - 2 ^ 0 ∧
    (0x20000008#64 : Addr).toNat % 2 ^ (3 + 1 + 1) = 2 ^ (3 + 1) - 2 ^ 3 ∧
    (0x7FFFFFFFFFFFFFFF#64 : Addr).toNat % 2 ^ (0 + 63 + 1) = 2 ^ (0 + 63) - 2 ^ 0 ∧
    (0x6000000000000000#64 : Addr).toNat % 2 ^ (61 + 2 + 1) = 2 ^ (61 + 2) - 2 ^ 61 := by decide

theorem witness_NonEmptyNapotIsAlignedPowerOfTwo : (rngNapot 0x5#64).contains 0x4#64 = true ∧
    (rngNapot 0x7FFFFFFFFFFFFFFF#64).contains 0#64 = true := by decide

theorem witness_ResolverReadsOnlyItsOperands :
    let s := State.presentEntry State.reset 0x0F#8 0x20#64
    let s' := State.presentEntry (st p1 0#64 .user .read) 0xE8#8 0x20#64
    s.sel = .rng ∧ s'.sel = .rng ∧
    (s.slots.get s.slot).cfg &&& 0x18#8 = (s'.slots.get s'.slot).cfg &&& 0x18#8 ∧
    (s.slots.get s.slot).addr = (s'.slots.get s'.slot).addr ∧ s.slotPrev = s'.slotPrev := by decide

theorem witness_EveryReadingAgreesOffTheCorners : (0x7#64 : Addr).getLsbD 0 = true ∧
    (0xFFFFFFFFFFFFFFFB#64 : Addr).toNat < 0xFFFFFFFFFFFFFFFC := by decide

theorem witness_ChecksAgreeUnderEveryReading : ∀ e ∈ p1, doubtfulEntry e = false := by decide

theorem witness_IgnoredBitsChangeNothing : 0x1F#8 &&& 0x9F#8 = 0x7F#8 &&& 0x9F#8 ∧
    List.Forall₂ (fun e e' : PmpEntry => e.addr = e'.addr ∧ e.cfg &&& 0x9F#8 = e'.cfg &&& 0x9F#8)
      [⟨0x1F#8, 7#64⟩] [⟨0x7F#8, 7#64⟩] := by simp

theorem witness_MatchAnswersOnThePorts :
    (st (List.replicate 63 ⟨0x00#8, 0#64⟩ ++ [⟨0x0F#8, 0x20#64⟩]) 0#64 .user .read).nEntries.toNat = 64 ∧
    hit (List.replicate 63 ⟨0x00#8, 0#64⟩ ++ [⟨0x0F#8, 0x20#64⟩]) 63 0x1F#64 = true ∧
    (∀ j, j < 63 → hit (List.replicate 63 ⟨0x00#8, 0#64⟩ ++ [⟨0x0F#8, 0x20#64⟩]) j 0x1F#64 = false) ∧
    State.reset.nEntries.toNat = 0 := by decide

theorem witness_MatchAnswersOnThePorts_outputs : ∃ x, (st p1 0x3000#64 .user .read).reqAddr = 0x3000#64 ∧
    (st p1 0x3000#64 .user .read).outputs = .ok x := ⟨_, rfl, rfl⟩

theorem witness_ChecksAnswer_no_hit : ∀ i, hit State.reset.table i 0#64 = false := by
  intro i
  simp [hit, State.table, State.reset]

theorem witness_OffEntriesAreSkippedInPlace : isOff ⟨0x87#8, 0x10#64⟩ ∧ (cfgdec (0x0F#8)).a = .tor :=
  ⟨by decide, by decide⟩

theorem witness_OffPaddingChangesNothing : ∀ e ∈ ([⟨0x00#8, 0x100#64⟩, ⟨0x87#8, 0#64⟩] : Table), isOff e := by
  simp only [isOff]; decide

theorem witness_NoEnabledEntryMatchesNothing : ∀ e ∈ ([] : Table) ++ [⟨0x60#8, MAX⟩], isOff e := by
  simp only [isOff]; decide

theorem witness_EmptyRangesAreNeverMatched :
    (matchEntry p3 0x7F#64 = some 3 ∧ p3[3]? = some ⟨0x09#8, 0x80#64⟩ ∧ (cfgdec 0x09#8).a = .tor) ∧
    (matchEntry s2 0x20000000#64 = some 0 ∧ (cfgdec 0x9F#8).a = .napot) := by decide

theorem witness_MatchReadsOnlyModesAndAddresses :
    List.Forall₂ (fun e e' : PmpEntry => e.addr = e'.addr ∧ e.cfg &&& 0x18#8 = e'.cfg &&& 0x18#8)
      [⟨0x18#8, 7#64⟩] [⟨0xFF#8, 7#64⟩] := by simp

theorem witness_MatchIndexFitsThePort :
    matchEntry (List.replicate 63 ⟨0x00#8, 0#64⟩ ++ [⟨0x0F#8, 0x20#64⟩]) 0x1F#64 = some 63 ∧
    tableOk (List.replicate 63 (⟨0x00#8, 0#64⟩ : PmpEntry) ++ [⟨0x0F#8, 0x20#64⟩]) = true := by decide

theorem witness_AppendingKeepsAnExistingMatch : matchEntry s2 0x20000007#64 = some 0 := by decide

theorem witness_LockMattersToMachineAlone : Mode.supervisor ≠ .machine ∧ Mode.user ≠ .machine := by decide

theorem witness_ChecksAnswerOnThePorts : (st s2 0#64 .user .read).nEntries.toNat ≤ 64 ∧
    (st s2 0#64 .user .read).table[0]? = some ⟨0x9F#8, 0x20000007#64⟩ ∧
    hit (st s2 0#64 .user .read).table 0 0x20000007#64 = true ∧
    (∀ j, j < 0 → hit (st s2 0#64 .user .read).table j 0x20000007#64 = false) := by decide

theorem witness_WhatEachModeMayDo : matchEntry p1 0x2000#64 = none ∧
    (matchEntry p1 0x1000#64 = some 1 ∧ p1[1]? = some ⟨0x0D#8, 0x2000#64⟩ ∧ (cfgdec 0x0D#8).l = false) ∧
    (matchEntry p1 0x3FFF#64 = some 3 ∧ p1[3]? = some ⟨0x89#8, 0x4000#64⟩ ∧ (cfgdec 0x89#8).l = true) := by decide

theorem witness_GatesComputeTheStep : LegalPorts (st [] MAX .machine .execute) ∧ (st [] MAX .machine .execute).sel = .check :=
  ⟨⟨by decide, by decide, by decide⟩, rfl⟩

theorem witness_EmptyTableFollowsTheDefault :
    (LegalPorts (st [⟨0x00#8, 0x100#64⟩] MAX .user .read) ∧ (st [⟨0x00#8, 0x100#64⟩] MAX .user .read).sel = .check ∧
      ∀ e ∈ (st [⟨0x00#8, 0x100#64⟩] MAX .user .read).table, isOff e) ∧
    (LegalPorts State.reset ∧ State.reset.sel = .check ∧ ∀ e ∈ State.reset.table, isOff e) := by
  unfold LegalPorts; decide

theorem witness_ResultsAreMonotone : p1[5]? = some ⟨0x9C#8, 0x8007#64⟩ ∧ check p1 0x8000#64 .machine .execute = .allowed ∧
    check p1 0x8000#64 .user .execute = .allowed ∧ 0x07#8 &&& 0xF8#8 = 0#8 := by decide

theorem witness_OtherEntriesBitsChangeNothing : matchEntry ([⟨0x1F#8, 7#64⟩, ⟨0x1F#8, 0xF#64⟩] : Table) 0#64 = some 0 ∧
    List.Forall₂ (fun e e' : PmpEntry => e.addr = e'.addr ∧ e.cfg &&& 0x18#8 = e'.cfg &&& 0x18#8)
      [⟨0x1F#8, 7#64⟩, ⟨0x1F#8, 0xF#64⟩] [⟨0x1F#8, 7#64⟩, ⟨0x98#8, 0xF#64⟩] := ⟨by decide, by simp⟩

theorem witness_NoInstructionWritesAnInput : ∃ t, exec (.checkR .user 0#64) State.reset = .next t := ⟨_, rfl⟩

theorem witness_EveryStepOnLegalPortsAnswers :
    (∃ r, step { State.reset with reqMode := 2#2 } = .refused r) ∧ LegalPorts State.reset :=
  ⟨⟨_, rfl⟩, ⟨by decide, by decide, by decide⟩⟩

theorem witness_StepKeepsOutputsFollowingInputs :
    ∃ s t, s = { st s2 0x20000004#64 .user .read with delivered := ⟨true, true, 0#6⟩ } ∧ OutputsFollow s ∧
      step s = .next t := by
  refine ⟨_, _, rfl, ?_, rfl⟩
  intro m o _ hm ho
  obtain rfl : Mode.user = m := Option.some.inj hm
  obtain rfl : Operation.read = o := Option.some.inj ho
  decide

theorem witness_CheckStepMakesOutputsFollow : ∃ t, (st p1 0x8007#64 .user .execute).sel = .check ∧
    step (st p1 0x8007#64 .user .execute) = .next t := ⟨_, rfl, rfl⟩

theorem witness_AskingTwiceChangesNothing : ∃ t, step (atSlot .rng 4) = .next t := ⟨_, rfl⟩

theorem witness_EqualInputsGiveEqualResults :
    let s := st s2 0#64 .user .read
    let s' := { s with delivered := ⟨true, false, 9#6⟩, slot := 5, range := some (rngTor MAX 0#64) }
    SameBlockInputs s s' ∧ s.sel = .check ∧ s'.sel = .check ∧ ∃ t, step s = .next t :=
  ⟨⟨rfl, rfl, rfl, rfl, rfl⟩, rfl, rfl, _, rfl⟩

theorem witness_SlotsBeyondTheCountDoNotMatter :
    let s := st s2 0#64 .user .read
    let s' := { st [⟨0x9F#8, 0x20000007#64⟩, ⟨0x1F#8, 7#64⟩] 0#64 .user .read with nEntries := 1#7 }
    (countOk s.nEntries = true ∧ modeCodeOk s.reqMode = true ∧ opCodeOk s.reqOp = true) ∧ s.sel = .check ∧ s'.sel = .check ∧
    s.nEntries = s'.nEntries ∧ s.reqAddr = s'.reqAddr ∧ s.reqMode = s'.reqMode ∧ s.reqOp = s'.reqOp ∧
    ∀ i : Fin 64, i.val < s.nEntries.toNat → s.slots.get i = s'.slots.get i := by decide

theorem witness_DrivenPortsAreEvaluated : (List.replicate 64 (⟨0x1F#8, 7#64⟩ : PmpEntry)).length ≤ 64 := by decide

theorem witness_FormedTableZipsTheTwoSections : 0 < (formTable (List.replicate 65 (0x19F#64 : Addr))).length := by decide

theorem witness_LoaderReadsTheFirst128Lines : hexLine params ['Z', 'Z'] = none ∧ ['Z', 'Z'] ∈ ([['Z', 'Z']] : List (List Char)).take 128 := by
  decide

theorem witness_HexTextsTheSpecSettles : ['9', 'f'] ≠ [] ∧ ['9', 'f'].length ≤ 16 ∧
    ['9', 'f'].map hexDigit = [9, 15].map some ∧ ['0', 'x', 'Z'].any badChar = true := by decide

theorem witness_HexTextsTheSpecSettles_shapes : ['1'] ≠ [] ∧ ['1'] ≠ ['0'] ∧ (∀ d ∈ ['1'], (hexDigit d).isSome) ∧
    spaceChar ' ' = true ∧ spaceChar 'F' = false := ⟨by decide, by decide, by simp [hexDigit], rfl, rfl⟩

theorem witness_HexTextsTheSpecSettles_prefix : ¬ HasPrefix [] ∧ ¬ HasPrefix ['2', '0'] := by
  constructor <;> rintro ⟨u, v, h | h⟩ <;> rcases u with _ | ⟨_, _ | ⟨_, _ | ⟨_, u⟩⟩⟩ <;> simp at h

theorem witness_ModeAndOperationCharacters : parseMode ['H'] = .error .validationError ∧
    parseOperation ['Q'] = .error .validationError := ⟨rfl, rfl⟩

theorem witness_ToolReportsSomeApplicableError :
    runTool params { p4Input with file := none } = .failed .ioError ∧
    applicable params { p4Input with file := none } .ioError = true := by decide

theorem witness_ToolPrintsTheBlocksAnswer : parseAddress params p4Input.address = .ok 0x8004#64 ∧
    parseMode p4Input.mode = .ok .machine ∧ parseOperation p4Input.operation = .ok .read ∧
    loadTable params p4Input.file = .ok [⟨0x0F#8, 0x1000#64⟩, ⟨0x1B#8, 0x20FF#64⟩, ⟨0x9C#8, 0x8007#64⟩] :=
  ⟨rfl, rfl, rfl, rfl⟩

end Sys2Proof.Tests
end

/-! ### Field A of a configuration byte selects its range computation -/

section

namespace Sys2Proof

/-- The mask `0x18` keeps the whole of field A (30_encoding.md R43), so bytes that agree under it have one field A. -/
theorem fieldA_and_mask (b : Byte) : (b &&& 0x18#8).extractLsb' 3 2 = b.extractLsb' 3 2 := by
  have mask_field_ones : (0x18#8 : Byte).extractLsb' 3 2 = BitVec.allOnes 2 := by decide
  rw [BitVec.extractLsb'_and, mask_field_ones, BitVec.and_allOnes]

/-- The mode a byte's field A stands for can be read off the masked byte. -/
theorem decodeAMode_of_mask {b m : Byte} (h : b &&& 0x18#8 = m) :
    decodeAMode (b.extractLsb' 3 2) = decodeAMode (m.extractLsb' 3 2) := by
  rw [← fieldA_and_mask, h]

section DecodeByMode

variable {b : Byte} (addr prev : Addr)

theorem decode_cfg8_of_off (h : decodeAMode (b.extractLsb' 3 2) = .off) :
    decode (.cfg8 b addr prev) = .ok (.rngOff (decodeCfgRest b)) := by
  simp only [decode, decodeRng, h]

theorem decode_cfg8_of_tor (h : decodeAMode (b.extractLsb' 3 2) = .tor) :
    decode (.cfg8 b addr prev) = .ok (.rngTor (decodeCfgRest b) addr prev) := by
  simp only [decode, decodeRng, h]

theorem decode_cfg8_of_na4 (h : decodeAMode (b.extractLsb' 3 2) = .na4) :
    decode (.cfg8 b addr prev) = .ok (.rngNa4 (decodeCfgRest b) addr) := by
  simp only [decode, decodeRng, h]

theorem decode_cfg8_of_napot (h : decodeAMode (b.extractLsb' 3 2) = .napot) :
    decode (.cfg8 b addr prev) = .ok (.rngNapot (decodeCfgRest b) addr) := by
  simp only [decode, decodeRng, h]

end DecodeByMode

/-- Settles O3: the masked byte fixes field A, and field A alone chooses among the decoder's four equations; the operand
that carries the other bits is the same in all four. -/
theorem fieldASelectsTheRangeComputation : Obligations.FieldASelectsTheRangeComputation := by
  intro b addr prev
  refine ⟨decodeCfgRest b, fun hoff => ?off, fun htor => ?tor, fun hna4 => ?na4, fun hnapot => ?napot⟩
  case off => exact decode_cfg8_of_off addr prev (decodeAMode_of_mask hoff)
  case tor => exact decode_cfg8_of_tor addr prev (decodeAMode_of_mask htor)
  case na4 => exact decode_cfg8_of_na4 addr prev (decodeAMode_of_mask hna4)
  case napot => exact decode_cfg8_of_napot addr prev (decodeAMode_of_mask hnapot)

end Sys2Proof

end


/-! ### The Config Decoder reads each field at its place in the byte -/

section

namespace Sys2Proof

/-- Bit `i` as the spec writes it, shifted down and masked (40_config_decoder.md R60), is bit `i` as the model reads it. -/
theorem getLsbD_eq_shift_and_one (b : Byte) (i : Nat) : b.getLsbD i = (b >>> i &&& 1#8 == 1#8) := by
  rw [BitVec.and_one_eq_setWidth_ofBool_getLsbD, BitVec.getLsbD_ushiftRight, Nat.add_zero]
  cases b.getLsbD i <;> rfl

/-- Field A as the spec writes it, shifted down and masked (40_config_decoder.md R60), is the field the model extracts. -/
theorem fieldA_eq_shift_and_mask (b : Byte) : (b.extractLsb' 3 2).setWidth 8 = b >>> 3 &&& 0b11#8 := by
  have mask_is_mod : b.toNat >>> 3 &&& 3 = b.toNat >>> 3 % 4 := Nat.and_two_pow_sub_one_eq_mod _ 2
  have field_fits : b.toNat >>> 3 % 4 < 256 := by omega
  apply BitVec.eq_of_toNat_eq
  simp [mask_is_mod, field_fits]

/-- Every value of field A is the code of the mode it decodes to (30_encoding.md R46). -/
@[simp] theorem amodeCode_decodeAMode (v : BitVec 2) : amodeCode (decodeAMode v) = v := by
  revert v
  decide

/-- The code of the decoded address mode is field A of the byte. -/
theorem amodeCode_cfgdec_a (b : Byte) : amodeCode (cfgdec b).a = b.extractLsb' 3 2 := amodeCode_decodeAMode _

/-- CFGDEC answers next in every state, with the decoded byte written (40_config_decoder.md R58, R59). -/
theorem exec_cfgdec (b : Byte) (s : Machine.State) :
    Machine.exec (.cfgdec b) s = .next (s.withDecoded (cfgdec b)) := rfl

/-- Settles O9: the answer is `withDecoded`, which writes the one field, and each field of the Config is its shift and
mask of R60. -/
theorem cfgdecExtractsEachField : Obligations.CfgdecExtractsEachField := by
  intro b s
  refine ⟨s.withDecoded (cfgdec b), exec_cfgdec b s, rfl, ?lock, ?mode, ?read, ?write, ?execute⟩
  case lock => exact getLsbD_eq_shift_and_one b 7
  case mode => rw [Machine.State.withDecoded_decoded, amodeCode_cfgdec_a, fieldA_eq_shift_and_mask]
  case read => exact (getLsbD_eq_shift_and_one b 0).trans (by rw [BitVec.ushiftRight_zero])
  case write => exact getLsbD_eq_shift_and_one b 1
  case execute => exact getLsbD_eq_shift_and_one b 2

end Sys2Proof

end


/-! ### RNG.TOR resolves to the addresses from the predecessor up to the entry's own, as stored -/

section

namespace Sys2Proof.Machine

/-- RNG.TOR answers next in every state, with the resolved range written (41_range_resolver.md R68). -/
theorem exec_rngTor (f : CfgRest) (addr prev : Addr) (s : State) :
    exec (.rngTor f addr prev) s = .next (s.withRange (some (rngTor addr prev))) := rfl

@[simp] theorem rngTor_start (addr prev : Addr) : (rngTor addr prev).start = prev := rfl

/-- The extra bit of a range's end is not used by a TOR end. -/
@[simp] theorem rngTor_stop_toNat (addr prev : Addr) : (rngTor addr prev).stop.toNat = addr.toNat :=
  BitVec.toNat_setWidth_of_le (by decide)

/-- Containment in a TOR range as an inequality on the two stored values. -/
theorem rngTor_contains_iff (addr prev a : Addr) :
    (rngTor addr prev).contains a = true ↔ prev.toNat ≤ a.toNat ∧ a.toNat < addr.toNat := by
  rw [Range.contains_iff, rngTor_start, rngTor_stop_toNat]

/-- A TOR range whose bounds are not in order holds nothing (41_range_resolver.md R68). -/
theorem rngTor_contains_of_le {addr prev : Addr} (h : addr.toNat ≤ prev.toNat) (a : Addr) :
    (rngTor addr prev).contains a = false := by
  rw [Bool.eq_false_iff, ne_eq, rngTor_contains_iff]
  omega

/-- The excluded end is a 64-bit value, so the last address is below no TOR end. -/
theorem rngTor_contains_MAX (addr prev : Addr) : (rngTor addr prev).contains MAX = false := by
  have addr_le_MAX : addr.toNat ≤ MAX.toNat := Nat.le_sub_one_of_lt addr.isLt
  rw [Bool.eq_false_iff, ne_eq, rngTor_contains_iff]
  omega

/-- Settles O13: the answer is `withRange`, which writes the one field, and containment in the TOR range is the inequality
on its stored bounds, from which the empty case and `MAX` follow. -/
theorem rngTorIsPrevToAddr : Obligations.RngTorIsPrevToAddr := by
  intro f addr prev s
  refine ⟨s.withRange (some (rngTor addr prev)), rngTor addr prev, exec_rngTor f addr prev s, rfl,
    ?start, ?stop, ?contains, ?empty, ?last⟩
  case start => exact rngTor_start addr prev
  case stop => exact rngTor_stop_toNat addr prev
  case contains => exact rngTor_contains_iff addr prev
  case empty => exact rngTor_contains_of_le
  case last => exact rngTor_contains_MAX addr prev

end Sys2Proof.Machine

end


/-! ### MATCH is the least index that hits, and an Off entry keeps its place -/

section

namespace Sys2Proof.Machine

section AtTheSplit

variable (U V : Table) (e : PmpEntry) (a : Addr)

/-- An entry's raw address value is the predecessor value of the entry after it (42_entry_matcher.md R80). -/
@[simp] theorem prevAddr_append_cons_succ : prevAddr (U ++ e :: V) (U.length + 1) = e.addr := by
  simp [prevAddr]

/-- An entry hits at its index exactly if it hits with its predecessor's value. -/
theorem hit_append_cons_length :
    hit (U ++ e :: V) U.length a = entryHitWith resolve e (prevAddr (U ++ e :: V) U.length) a := by
  simp [hit]

/-- The entry after `e` hits at its index exactly if it hits with the address value of `e`. -/
theorem hit_append_cons_cons_succ (e' : PmpEntry) :
    hit (U ++ e :: e' :: V) (U.length + 1) a = entryHitWith resolve e' e.addr a := by
  simpa using hit_append_cons_length (U ++ [e]) V e' a

end AtTheSplit

/-- No index from the table's length on hits. -/
theorem hit_of_length_le {T : Table} {i : Nat} (h : T.length ≤ i) (a : Addr) : hit T i a = false := by
  simp [hit, List.getElem?_eq_none h]

/-- An index that hits stands in the table. -/
theorem lt_length_of_hit {T : Table} {i : Nat} {a : Addr} (h : hit T i a = true) : i < T.length := by
  by_contra hlen
  exact absurd h (by simp [hit_of_length_le (not_lt.mp hlen)])

/-- An Off entry does not hit, whatever its predecessor value (42_entry_matcher.md R83). -/
theorem entryHitWith_resolve_of_isOff {e : PmpEntry} (h : isOff e) (prev a : Addr) :
    entryHitWith resolve e prev a = false :=
  Bool.eq_false_iff.mpr fun hhit => entryHitWith_resolve_ne_off hhit h

/-- A TOR entry hits exactly the addresses from its predecessor value up to its own (42_entry_matcher.md R82). -/
theorem entryHitWith_resolve_tor_iff {e : PmpEntry} (h : (cfgdec e.cfg).a = .tor) (prev a : Addr) :
    entryHitWith resolve e prev a = true ↔ prev.toNat ≤ a.toNat ∧ a.toNat < e.addr.toNat := by
  rw [← rngTor_contains_iff, entryHitWith, h, resolve]

/-- A scan that has passed the entries `U` of a table searches the indices of the entries `V` that are left, in ascending
order, for one that hits in the whole table. -/
theorem scanFrom_append_eq_find? (U V : Table) (a : Addr) :
    (scanFrom resolve a (prevAddr (U ++ V) U.length) U.length V).map Prod.fst =
      (List.range' U.length V.length).find? fun i => hit (U ++ V) i a := by
  induction V generalizing U with
  | nil => rfl
  | cons e V ih =>
    have scan_the_rest : (scanFrom resolve a e.addr (U.length + 1) V).map Prod.fst =
        (List.range' (U.length + 1) V.length).find? fun i => hit (U ++ e :: V) i a := by
      simpa using ih (U ++ [e])
    rw [scanFrom, ← hit_append_cons_length, List.length_cons, List.range'_succ, List.find?_cons, ← scan_the_rest]
    cases hit (U ++ e :: V) U.length a <;> rfl

/-- MATCH searches the table's indices in ascending order for one that hits (42_entry_matcher.md R82). -/
theorem matchEntry_eq_find? (T : Table) (a : Addr) :
    matchEntry T a = (List.range T.length).find? fun i => hit T i a := by
  rw [List.range_eq_range']
  exact scanFrom_append_eq_find? [] T a

theorem matchEntry_eq_some_iff {T : Table} {a : Addr} {i : Nat} : matchEntry T a = some i ↔ firstHit T a i := by
  rw [matchEntry_eq_find?, List.find?_range_eq_some, List.mem_range, firstHit]
  constructor
  · rintro ⟨hhit, -, hbefore⟩
    exact ⟨hhit, by simpa using hbefore⟩
  · rintro ⟨hhit, hbefore⟩
    exact ⟨hhit, lt_length_of_hit hhit, by simpa using hbefore⟩

theorem matchEntry_eq_none_iff {T : Table} {a : Addr} : matchEntry T a = none ↔ ∀ i, hit T i a = false := by
  rw [matchEntry_eq_find?, List.find?_range_eq_none]
  constructor
  · intro hnone i
    rcases lt_or_ge i T.length with hlt | hge
    · simpa using hnone i hlt
    · exact hit_of_length_le hge a
  · intro hnone i _
    simp [hnone i]

/-- Settles O27: MATCH is the ascending search for a hit over the table's indices, and no index beyond them hits. -/
theorem matchIsTheLeastHit : Obligations.MatchIsTheLeastHit :=
  fun _ _ => ⟨fun _ => matchEntry_eq_some_iff, matchEntry_eq_none_iff⟩

/-- Settles O29: what MATCH answers hits, which an Off entry does not; the entry after it takes its predecessor value from
the Off entry all the same. -/
theorem offEntriesAreSkippedInPlace : Obligations.OffEntriesAreSkippedInPlace := by
  intro U V e a hoff
  refine ⟨fun hmatch => ?skipped, fun e' V' hV htor => ?bound⟩
  case skipped =>
    obtain ⟨hhit, -⟩ := matchEntry_eq_some_iff.mp hmatch
    rw [hit_append_cons_length, entryHitWith_resolve_of_isOff hoff] at hhit
    exact Bool.false_ne_true hhit
  case bound =>
    rw [hV, hit_append_cons_cons_succ, entryHitWith_resolve_tor_iff htor]

end Sys2Proof.Machine

end


/-! ### PERM is the two rules of the decision table -/

section

namespace Sys2Proof.Machine

/-- PERM answers next in every state, with the result written (43_permission_evaluator.md R91, R96). -/
theorem exec_perm (c : Config) (m : Mode) (o : Operation) (s : State) :
    exec (.perm c m o) s = .next (s.withVerdict (perm c m o)) := rfl

/-- Rule 1, the Machine bypass of an unlocked entry (43_permission_evaluator.md R91). -/
theorem perm_of_bypass {c : Config} {m : Mode} (h : m = .machine ∧ c.l = false) (o : Operation) :
    perm c m o = .allowed := if_pos h

/-- Rule 2, the bit lookup, where rule 1 does not apply (43_permission_evaluator.md R91). -/
theorem perm_of_not_bypass {c : Config} {m : Mode} (h : ¬(m = .machine ∧ c.l = false)) (o : Operation) :
    perm c m o = if permBit c o then .allowed else .denied := if_neg h

/-- A request is allowed exactly by the bypass or by its permission bit. -/
theorem perm_eq_allowed_iff (c : Config) (m : Mode) (o : Operation) :
    perm c m o = .allowed ↔ (m = .machine ∧ c.l = false) ∨ permBit c o = true := by
  by_cases hbypass : m = .machine ∧ c.l = false
  · exact iff_of_true (perm_of_bypass hbypass o) (.inl hbypass)
  · rw [perm_of_not_bypass hbypass, or_iff_right hbypass]
    simp

/-- Settles O36: the answer is `withVerdict`, which writes the one field, and the bit that rule 2 looks up is the
operation's own in each of the three cases. -/
theorem permIsTheDecisionTable : Obligations.PermIsTheDecisionTable := by
  intro c m o s
  refine ⟨s.withVerdict (perm c m o), exec_perm c m o s, rfl, ?allowed⟩
  rw [State.withVerdict_verdict]
  cases o with
  | read => exact perm_eq_allowed_iff c m .read
  | write => exact perm_eq_allowed_iff c m .write
  | execute => exact perm_eq_allowed_iff c m .execute

end Sys2Proof.Machine

end


/-! ### With no match CHECK is the default policy -/

section

namespace Sys2Proof.Machine

/-- MATCH answers what the scan finds without the entry, so it is "no match" only where the scan finds nothing. -/
theorem scan_eq_none_of_matchEntry {T : Table} {a : Addr} (h : matchEntry T a = none) : scan T a = none :=
  Option.map_eq_none_iff.mp h

/-- The default policy allows Machine alone (44_top_level_check.md R99). -/
theorem allowedBit_defaultPolicy_iff (m : Mode) : allowedBit (defaultPolicy m) = true ↔ m = .machine := by
  cases m <;> decide

/-- `req_mode` carries Machine by its one code 3 (30_encoding.md R49). -/
theorem decodeMode_eq_machine_iff (c : BitVec 2) : decodeMode c = some .machine ↔ c = 3#2 := by
  revert c
  decide

section NoMatch

variable {T : Table} {a : Addr}

/-- With no match the decision is the default policy (44_top_level_check.md R98, R99). -/
theorem check_of_no_match (h : matchEntry T a = none) (m : Mode) (o : Operation) : check T a m o = defaultPolicy m := by
  rw [check, scan_eq_none_of_matchEntry h, decideOn]

theorem evaluate_matched_of_no_match (h : matchEntry T a = none) (m : Mode) (o : Operation) :
    (evaluate T a m o).matched = false := by
  rw [evaluate, h, matchedBit, Option.isSome_none]

theorem evaluate_allowed_of_no_match_iff (h : matchEntry T a = none) (m : Mode) (o : Operation) :
    (evaluate T a m o).allowed = true ↔ m = .machine := by
  rw [evaluate, check_of_no_match h, allowedBit_defaultPolicy_iff]

end NoMatch

/-- A table of Off entries, the empty table among them, has no index that hits (42_entry_matcher.md R85). -/
theorem hit_of_forall_isOff {T : Table} (h : ∀ e ∈ T, isOff e) (i : Nat) (a : Addr) : hit T i a = false := by
  rw [hit]
  cases hentry : T[i]? with
  | none => rfl
  | some e => exact entryHitWith_resolve_of_isOff (h e (List.mem_of_getElem? hentry)) _ a

theorem matchEntry_of_forall_isOff {T : Table} (h : ∀ e ∈ T, isOff e) (a : Addr) : matchEntry T a = none :=
  matchEntry_eq_none_iff.mpr fun i => hit_of_forall_isOff h i a

/-- A selected CHECK presents its request to the decoder, which reads the form that `req_op` names. -/
theorem decode_fetch_of_check {s : State} {m : Mode} {o : Operation} (hsel : s.sel = .check)
    (hm : decodeMode s.reqMode = some m) (ho : decodeOp s.reqOp = some o) :
    decode s.fetch = .ok (checkInstr m s.reqAddr o) := by
  have hreq : decodeReq4 (req4 s.reqMode s.reqOp) = .ok (m, o) := (decodeReq4_eq_ok_iff ..).mpr ⟨hm, ho⟩
  simp only [State.fetch, hsel, decode, hreq]

/-- Where the block's outputs are specified, a step of CHECK delivers them (44_top_level_check.md R105). -/
theorem step_of_check {s : State} {x : Outputs} (hsel : s.sel = .check) (hout : s.outputs = .ok x) :
    step s = .next (s.withDelivered x) := by
  obtain ⟨hcount, m, o, hm, ho, rfl⟩ := (s.outputs_eq_ok_iff x).mp hout
  refine (step_next_iff s _).mpr ⟨checkInstr m s.reqAddr o, decode_fetch_of_check hsel hm ho, ?_⟩
  rw [exec_checkInstr]
  exact (evalCheck_next_iff ..).mpr ⟨hcount, rfl⟩

/-- On legal ports the outputs are the evaluation of some request that the ports carry. -/
theorem LegalPorts.outputs {s : State} (h : LegalPorts s) :
    ∃ m o, decodeMode s.reqMode = some m ∧ s.outputs = .ok (evaluate s.table s.reqAddr m o) := by
  obtain ⟨m, o, hm, ho⟩ := h.codes
  obtain ⟨hcount, -, -⟩ := h
  exact ⟨m, o, hm, (s.outputs_eq_ok_iff _).mpr ⟨hcount, m, o, hm, ho, rfl⟩⟩

/-- Settles O42: a table of Off entries matches nothing, so the outputs are the default policy, which allows Machine alone;
the step of CHECK delivers the outputs. -/
theorem emptyTableFollowsTheDefault : Obligations.EmptyTableFollowsTheDefault := by
  intro s hlegal hoff
  have no_match : matchEntry s.table s.reqAddr = none := matchEntry_of_forall_isOff hoff s.reqAddr
  obtain ⟨m, o, hm, hout⟩ := hlegal.outputs
  refine ⟨evaluate s.table s.reqAddr m o, hout, ?matched, ?allowed, fun hsel => ?step⟩
  case matched => exact evaluate_matched_of_no_match no_match m o
  case allowed => rw [evaluate_allowed_of_no_match_iff no_match, ← decodeMode_eq_machine_iff, hm, Option.some_inj]
  case step => exact ⟨_, step_of_check hsel hout, State.withDelivered_delivered ..⟩

end Sys2Proof.Machine

end


/-! ### The mode and operation characters of the command line -/

section

namespace Sys2Proof.Machine

/-- The texts that name a mode: its letter in either case (45_loader_and_cli.md R116). -/
def NamesMode (t : List Char) : Mode → Prop
  | .machine => t = ['M'] ∨ t = ['m']
  | .supervisor => t = ['S'] ∨ t = ['s']
  | .user => t = ['U'] ∨ t = ['u']

/-- The texts that name an operation: its letter in either case (45_loader_and_cli.md R117). -/
def NamesOperation (t : List Char) : Operation → Prop
  | .read => t = ['R'] ∨ t = ['r']
  | .write => t = ['W'] ∨ t = ['w']
  | .execute => t = ['X'] ∨ t = ['x']

/-- A result that is some value satisfying `P` or an error, and that is every value satisfying `P`, is a value exactly when
the value satisfies `P`. -/
theorem eq_ok_iff_of_ok_or_error {ε α : Type} {r : Except ε α} {e : ε} {P : α → Prop}
    (hcases : (∃ a, P a ∧ r = .ok a) ∨ r = .error e) (hvalue : ∀ a, P a → r = .ok a) (a : α) :
    r = .ok a ↔ P a := by
  refine ⟨fun hok => ?_, hvalue a⟩
  obtain ⟨b, hb, hok'⟩ | herror := hcases
  · obtain rfl : a = b := Except.ok.inj (hok.symm.trans hok')
    exact hb
  · cases hok.symm.trans herror

/-- Reading a mode either finds one that the text names, or is a ValidationError. -/
theorem parseMode_cases (t : List Char) :
    (∃ m, NamesMode t m ∧ parseMode t = .ok m) ∨ parseMode t = .error .validationError := by
  fun_cases parseMode t with
  | case1 hmachine => exact .inl ⟨.machine, hmachine, rfl⟩
  | case2 _ hsupervisor => exact .inl ⟨.supervisor, hsupervisor, rfl⟩
  | case3 _ _ huser => exact .inl ⟨.user, huser, rfl⟩
  | case4 => exact .inr rfl

/-- Reading an operation either finds one that the text names, or is a ValidationError. -/
theorem parseOperation_cases (t : List Char) :
    (∃ o, NamesOperation t o ∧ parseOperation t = .ok o) ∨ parseOperation t = .error .validationError := by
  fun_cases parseOperation t with
  | case1 hread => exact .inl ⟨.read, hread, rfl⟩
  | case2 _ hwrite => exact .inl ⟨.write, hwrite, rfl⟩
  | case3 _ _ hexecute => exact .inl ⟨.execute, hexecute, rfl⟩
  | case4 => exact .inr rfl

theorem parseMode_of_names {t : List Char} {m : Mode} (h : NamesMode t m) : parseMode t = .ok m := by
  cases m <;> obtain rfl | rfl := h <;> rfl

theorem parseOperation_of_names {t : List Char} {o : Operation} (h : NamesOperation t o) :
    parseOperation t = .ok o := by
  cases o <;> obtain rfl | rfl := h <;> rfl

theorem parseMode_eq_ok_iff (t : List Char) (m : Mode) : parseMode t = .ok m ↔ NamesMode t m :=
  eq_ok_iff_of_ok_or_error (parseMode_cases t) (fun _ => parseMode_of_names) m

theorem parseOperation_eq_ok_iff (t : List Char) (o : Operation) :
    parseOperation t = .ok o ↔ NamesOperation t o :=
  eq_ok_iff_of_ok_or_error (parseOperation_cases t) (fun _ => parseOperation_of_names) o

/-- A text that is read as no mode is a ValidationError, and no other error. -/
theorem parseMode_eq_validationError {t : List Char} (h : ∀ m, parseMode t ≠ .ok m) :
    parseMode t = .error .validationError :=
  (parseMode_cases t).resolve_left fun ⟨m, _, hok⟩ => h m hok

/-- A text that is read as no operation is a ValidationError, and no other error. -/
theorem parseOperation_eq_validationError {t : List Char} (h : ∀ o, parseOperation t ≠ .ok o) :
    parseOperation t = .error .validationError :=
  (parseOperation_cases t).resolve_left fun ⟨o, _, hok⟩ => h o hok

/-- Settles O58: each value is read from exactly the texts that name it, and what names none is a ValidationError. -/
theorem modeAndOperationCharacters : Obligations.ModeAndOperationCharacters := fun t =>
  ⟨parseMode_eq_ok_iff t .machine, parseMode_eq_ok_iff t .supervisor, parseMode_eq_ok_iff t .user,
    parseMode_eq_validationError,
    parseOperation_eq_ok_iff t .read, parseOperation_eq_ok_iff t .write, parseOperation_eq_ok_iff t .execute,
    parseOperation_eq_validationError⟩

end Sys2Proof.Machine

end


/-! ### What each mode may do, by what the first matching entry says -/

section

namespace Sys2Proof.Machine

/-- MATCH answers what the scan finds without the entry, and the entry the scan finds stands in the table at that index. -/
theorem scan_eq_some_of_matchEntry {T : Table} {a : Addr} {i : Nat} {e : PmpEntry} (hmatch : matchEntry T a = some i)
    (hentry : T[i]? = some e) : scan T a = some (i, e) := by
  obtain ⟨⟨_, e'⟩, hscan, rfl⟩ := Option.map_eq_some_iff.mp hmatch
  obtain ⟨-, hfound, -⟩ := scanFrom_eq_some hscan
  obtain rfl : e' = e := Option.some.inj (hfound.symm.trans hentry)
  exact hscan

/-- With a match the decision is the matched entry's (44_top_level_check.md R98). -/
theorem check_of_match {T : Table} {a : Addr} {i : Nat} {e : PmpEntry} (hmatch : matchEntry T a = some i)
    (hentry : T[i]? = some e) (m : Mode) (o : Operation) : check T a m o = perm (cfgdec e.cfg) m o := by
  rw [check, scan_eq_some_of_matchEntry hmatch hentry, decideOn]

/-- Where the bypass does not apply, the permission bit alone decides (43_permission_evaluator.md R91). -/
theorem perm_eq_allowed_iff_of_not_bypass {c : Config} {m : Mode} (h : ¬(m = .machine ∧ c.l = false)) (o : Operation) :
    perm c m o = .allowed ↔ permBit c o = true := by
  rw [perm_eq_allowed_iff, or_iff_right h]

/-- Settles O41: with no match the decision is the default policy, with one it is the matched entry's; the bypass there is
for Machine on an unlocked entry, so for Machine on a locked one, and for the other modes on any, the bit decides. -/
theorem whatEachModeMayDo : Obligations.WhatEachModeMayDo := by
  intro T a o
  refine ⟨fun no_match => ?unmatched, fun i e hmatch hentry => ?matched⟩
  case unmatched => exact ⟨check_of_no_match no_match _ o, check_of_no_match no_match _ o, check_of_no_match no_match _ o⟩
  case matched =>
    simp only [check_of_match hmatch hentry]
    refine ⟨fun unlocked => ?bypass, fun locked => ?locked, ?supervisor, ?user⟩
    case bypass => exact perm_of_bypass ⟨rfl, unlocked⟩ o
    case locked => exact perm_eq_allowed_iff_of_not_bypass (by simp [locked]) o
    case supervisor => exact perm_eq_allowed_iff_of_not_bypass (by simp) o
    case user => exact perm_eq_allowed_iff_of_not_bypass (by simp) o

end Sys2Proof.Machine

end


/-! ### A step answers or refuses a reserved code -/

section

namespace Sys2Proof.Machine

/-- The outcomes of an operation on the table ports of `s`: it answers, or it refuses a reserved count. -/
def AnswersOrRefusesCount (s : State) (x : Host.Outcome State Fault Refusal) : Prop :=
  (∃ t, x = .next t) ∨ (countOk s.nEntries = false ∧ x = .refused (.reservedPortCode .nEntries))

theorem withTable_answersOrRefusesCount (s : State) (k : Table → State) : AnswersOrRefusesCount s (withTable s k) := by
  cases hcount : countOk s.nEntries with
  | true => exact .inl ⟨k s.table, (withTable_next_iff ..).mpr ⟨hcount, rfl⟩⟩
  | false => exact .inr ⟨hcount, (withTable_refused_iff ..).mpr ⟨hcount, rfl⟩⟩

theorem evalCheck_answersOrRefusesCount (o : Operation) (m : Mode) (a : Addr) (s : State) :
    AnswersOrRefusesCount s (evalCheck o m a s) := withTable_answersOrRefusesCount ..

theorem execMatchScan_answersOrRefusesCount (a : Addr) (s : State) : AnswersOrRefusesCount s (execMatchScan a s) :=
  withTable_answersOrRefusesCount ..

/-- Every operation is total (60_exceptions.md R125) but for the two that read the table, CHECK and MATCH, which refuse a
reserved count. -/
theorem exec_answersOrRefusesCount (i : Instr) (s : State) : AnswersOrRefusesCount s (exec i s) := by
  cases i with
  | rngOff | rngTor | rngNa4 | rngNapot | cfgdec | perm => exact .inl ⟨_, rfl⟩
  | checkR m a => exact evalCheck_answersOrRefusesCount .read m a s
  | checkW m a => exact evalCheck_answersOrRefusesCount .write m a s
  | checkX m a => exact evalCheck_answersOrRefusesCount .execute m a s
  | matchScan a => exact execMatchScan_answersOrRefusesCount a s

/-- On a legal count every operation answers. -/
theorem exec_next_of_countOk {s : State} (h : countOk s.nEntries = true) (i : Instr) : ∃ t, exec i s = .next t :=
  (exec_answersOrRefusesCount i s).resolve_right fun ⟨hcount, _⟩ => Bool.false_ne_true (hcount.symm.trans h)

/-- An operation refuses nothing but a reserved count. -/
theorem eq_reservedPortCode_of_exec_refused {i : Instr} {s : State} {r : Refusal} (h : exec i s = .refused r) :
    r = .reservedPortCode .nEntries := by
  obtain ⟨t, hnext⟩ | ⟨-, hrefused⟩ := exec_answersOrRefusesCount i s
  · cases hnext.symm.trans h
  · exact Host.Outcome.refused.inj (h.symm.trans hrefused)

/-- On legal ports whatever the selection presents decodes: CHECK and PERM present the request's two codes, the other
operations no code that can be reserved (30_encoding.md R56). -/
theorem LegalPorts.decode_fetch {s : State} (h : LegalPorts s) : ∃ i, decode s.fetch = .ok i := by
  obtain ⟨m, o, hm, ho⟩ := h.codes
  have request_decodes : decodeReq4 (req4 s.reqMode s.reqOp) = .ok (m, o) := (decodeReq4_eq_ok_iff ..).mpr ⟨hm, ho⟩
  cases hsel : s.sel with
  | check => exact ⟨_, decode_fetch_of_check hsel hm ho⟩
  | perm => simp [State.fetch, hsel, decode, request_decodes]
  | rng | cfgdec | matchScan => simp [State.fetch, hsel, decode]

/-- On legal ports every step answers. -/
theorem LegalPorts.step_next {s : State} (h : LegalPorts s) : ∃ t, step s = .next t := by
  obtain ⟨i, hdecode⟩ := h.decode_fetch
  obtain ⟨hcount, -, -⟩ := h
  obtain ⟨t, hexec⟩ := exec_next_of_countOk hcount i
  exact ⟨t, (step_next_iff s t).mpr ⟨i, hdecode, hexec⟩⟩

/-- A refusal of a step, by the decoder or by the operation, names a port. -/
theorem exists_port_of_step_refused {s : State} {r : Refusal} (h : step s = .refused r) :
    ∃ p, r = .reservedPortCode p := by
  obtain ⟨p, -, hport⟩ | ⟨i, -, hexec⟩ := (step_refused_iff s r).mp h
  · exact ⟨p, hport⟩
  · exact ⟨.nEntries, eq_reservedPortCode_of_exec_refused hexec⟩

/-- Settles O46: there is no fault to answer, legal ports decode to an operation that answers, so what is refused was not
legal, and the refusal is the decoder's or the table reader's. -/
theorem everyStepOnLegalPortsAnswers : Obligations.EveryStepOnLegalPortsAnswers := by
  refine ⟨fun _ r => (nomatch r), fun _ => LegalPorts.step_next, fun s r hrefused => ⟨fun hlegal => ?illegal, ?port⟩⟩
  case illegal =>
    obtain ⟨t, hnext⟩ := hlegal.step_next
    cases hnext.symm.trans hrefused
  case port => exact exists_port_of_step_refused hrefused

end Sys2Proof.Machine

end


/-! ### Encoding and decoding agree -/

section

namespace Sys2Proof

/-! Modes, operations and request words -/

/-- A code decodes to a mode exactly if it is that mode's (30_encoding.md R49). -/
theorem decodeMode_eq_some_iff (c : BitVec 2) (m : Mode) : decodeMode c = some m ↔ c = modeCode m := by
  revert c
  cases m <;> decide

/-- A code decodes to an operation exactly if it is that operation's (30_encoding.md R50). -/
theorem decodeOp_eq_some_iff (c : BitVec 2) (o : Operation) : decodeOp c = some o ↔ c = opCode o := by
  revert c
  cases o <;> decide

/-- A request word is the two codes it is cut into (30_encoding.md R42). -/
theorem req4_extract (q : BitVec 4) : req4 (q.extractLsb' 2 2) (q.extractLsb' 0 2) = q := by
  revert q
  decide

/-- The codes of a mode and of an operation decode to the two. -/
theorem decodeReq4_of_codes (m : Mode) (o : Operation) : decodeReq4 (req4 (modeCode m) (opCode o)) = .ok (m, o) :=
  (Machine.decodeReq4_eq_ok_iff ..).mpr ⟨decodeMode_modeCode m, decodeOp_opCode o⟩

/-- A request word decodes to a mode and an operation exactly if it is their two codes. -/
theorem decodeReq4_eq_ok_iff_codes (q : BitVec 4) (m : Mode) (o : Operation) :
    decodeReq4 q = .ok (m, o) ↔ q = req4 (modeCode m) (opCode o) := by
  constructor
  · intro hdecode
    rw [← req4_extract q, Machine.decodeReq4_eq_ok_iff, decodeMode_eq_some_iff, decodeOp_eq_some_iff] at hdecode
    obtain ⟨hmode, hop⟩ := hdecode
    rw [← req4_extract q, hmode, hop]
  · rintro rfl
    exact decodeReq4_of_codes m o

/-- The reserved mode is named whatever the operation's code (30_encoding.md R56). -/
theorem decodeReq4_of_reserved_mode (o : BitVec 2) : decodeReq4 (req4 2#2 o) = .error .reqMode := by
  simp [decodeReq4, decodeMode]

/-- The reserved operation is named where the mode's code is some mode's (30_encoding.md R56). -/
theorem decodeReq4_of_reserved_op {m : BitVec 2} (h : m ≠ 2#2) : decodeReq4 (req4 m 3#2) = .error .reqOp := by
  obtain ⟨mode, hmode⟩ := Option.ne_none_iff_exists'.mp (mt (decodeMode_eq_none_iff m).mp h)
  simp [decodeReq4, hmode, decodeOp]

/-- A request word presented with an address decodes to the CHECK form of its codes (30_encoding.md R54). -/
theorem decode_req4_of_ok {q : BitVec 4} {m : Mode} {o : Operation} (h : decodeReq4 q = .ok (m, o)) (a : Addr) :
    decode (.req4 q a) = .ok (checkInstr m a o) := by
  simp only [decode, h]

theorem decode_req4_of_error {q : BitVec 4} {p : Port} (h : decodeReq4 q = .error p) (a : Addr) :
    decode (.req4 q a) = .error p := by
  simp only [decode, h]

/-- What a request word and its address decode to is a CHECK form of that address. -/
theorem decode_req4_eq_ok_iff (q : BitVec 4) (a : Addr) (i : Instr) :
    decode (.req4 q a) = .ok i ↔ ∃ m o, q = req4 (modeCode m) (opCode o) ∧ i = checkInstr m a o := by
  simp only [← decodeReq4_eq_ok_iff_codes]
  cases hdecode : decodeReq4 q with
  | error p => simp [decode_req4_of_error hdecode]
  | ok mo =>
    obtain ⟨m, o⟩ := mo
    simp [decode_req4_of_ok hdecode, eq_comm]

/-- A CHECK form is encoded as its codes and its address (30_encoding.md R54). -/
theorem encode_checkInstr (m : Mode) (a : Addr) (o : Operation) :
    encode (checkInstr m a o) = .req4 (req4 (modeCode m) (opCode o)) a := by
  cases o <;> rfl

/-! Configuration bytes -/

/-- The mode that an encoded byte's field A stands for. -/
theorem decodeAMode_encodeCfg8 (a : AMode) (f : CfgRest) : decodeAMode ((encodeCfg8 a f).extractLsb' 3 2) = a := by
  obtain ⟨hmode, -⟩ := encodeCfg8_fields a f
  rw [hmode, decodeAMode_amodeCode]

theorem decodeCfgRest_encodeCfg8 (a : AMode) (f : CfgRest) : decodeCfgRest (encodeCfg8 a f) = f :=
  (encodeCfg8_fields a f).2

/-- A byte is put together again from field A and the other fields (30_encoding.md R43). -/
theorem encodeCfg8_decode (b : Byte) : encodeCfg8 (decodeAMode (b.extractLsb' 3 2)) (decodeCfgRest b) = b := by
  rw [encodeCfg8, amodeCode_decodeAMode]
  revert b
  decide

/-- The Config of a byte is field A's mode and the fields of the rest, without the ignored bits (40_config_decoder.md R58). -/
theorem cfgdec_eq_of_fields (b : Byte) :
    cfgdec b = { r := (decodeCfgRest b).r, w := (decodeCfgRest b).w, x := (decodeCfgRest b).x,
                 a := decodeAMode (b.extractLsb' 3 2), l := (decodeCfgRest b).l } := rfl

theorem cfgdec_encodeCfg8 (a : AMode) (f : CfgRest) :
    cfgdec (encodeCfg8 a f) = { r := f.r, w := f.w, x := f.x, a := a, l := f.l } := by
  rw [cfgdec_eq_of_fields, decodeAMode_encodeCfg8, decodeCfgRest_encodeCfg8]

/-- Every Config is that of its own byte (40_config_decoder.md R61). -/
@[simp] theorem cfgdec_configByte (c : Config) : cfgdec (configByte c) = c := cfgdec_encodeCfg8 ..

/-- Settles O1: a RNG operation by the mode of its byte's field A, a CHECK form by its two codes, PERM by both; the other
two are presented as they are. -/
theorem decodeOfEncodeIsTheInstruction : Obligations.DecodeOfEncodeIsTheInstruction := by
  intro i
  cases i with
  | rngOff f => rw [encode, decode_cfg8_of_off _ _ (decodeAMode_encodeCfg8 ..), decodeCfgRest_encodeCfg8]
  | rngTor f addr prev => rw [encode, decode_cfg8_of_tor _ _ (decodeAMode_encodeCfg8 ..), decodeCfgRest_encodeCfg8]
  | rngNa4 f addr => rw [encode, decode_cfg8_of_na4 _ _ (decodeAMode_encodeCfg8 ..), decodeCfgRest_encodeCfg8]
  | rngNapot f addr => rw [encode, decode_cfg8_of_napot _ _ (decodeAMode_encodeCfg8 ..), decodeCfgRest_encodeCfg8]
  | checkR m a => exact decode_req4_of_ok (decodeReq4_of_codes m .read) a
  | checkW m a => exact decode_req4_of_ok (decodeReq4_of_codes m .write) a
  | checkX m a => exact decode_req4_of_ok (decodeReq4_of_codes m .execute) a
  | cfgdec b => rfl
  | matchScan a => rfl
  | perm c m o => simp only [encode, decode, decodeReq4_of_codes, cfgdec_configByte]

/-- The byte that reaches the resolver is the one its operation is encoded as, whatever its field A. -/
theorem encode_decodeRng (b : Byte) (addr prev : Addr) :
    ∃ addr' prev', encode (decodeRng b addr prev) = .cfg8 b addr' prev' := by
  have same_byte := encodeCfg8_decode b
  unfold decodeRng
  cases hmode : decodeAMode (b.extractLsb' 3 2) <;> rw [hmode] at same_byte <;> exact ⟨_, _, by rw [encode, same_byte]⟩

/-- Settles O2: a configuration byte is the one its operation is encoded as, and a request word that decodes is the two
codes of what it decodes to. -/
theorem encodeOfDecodeKeepsByteAndRequest : Obligations.EncodeOfDecodeKeepsByteAndRequest := by
  refine ⟨fun b addr prev => ?byte, fun q a i hdecode => ?request⟩
  case byte =>
    obtain ⟨addr', prev', hencode⟩ := encode_decodeRng b addr prev
    exact ⟨decodeRng b addr prev, addr', prev', rfl, hencode⟩
  case request =>
    obtain ⟨m, o, rfl, rfl⟩ := (decode_req4_eq_ok_iff ..).mp hdecode
    exact encode_checkInstr m a o

/-- Settles O4: the nine legal words are the codes of a mode and an operation, the others carry a reserved code. -/
theorem requestWordsSelectTheCheckForm : Obligations.RequestWordsSelectTheCheckForm := by
  intro a
  have legal (m : Mode) (o : Operation) := decode_req4_of_ok (decodeReq4_of_codes m o) a
  exact ⟨legal .user .read, legal .user .write, legal .user .execute,
    legal .supervisor .read, legal .supervisor .write, legal .supervisor .execute,
    legal .machine .read, legal .machine .write, legal .machine .execute,
    fun o => decode_req4_of_error (decodeReq4_of_reserved_mode o) a,
    fun _ hmode => decode_req4_of_error (decodeReq4_of_reserved_op hmode) a⟩

/-- Settles O5: the words are fixed, so each decodes by evaluation. -/
theorem wordsWrittenOutDecode : Obligations.WordsWrittenOutDecode := by
  unfold Obligations.WordsWrittenOutDecode
  decide

/-! The ignored bits -/

/-- The mask `0x9F` keeps every bit that the Config Decoder reads (30_encoding.md R44). -/
theorem cfgdec_and_mask (b : Byte) : cfgdec (b &&& 0x9F#8) = cfgdec b := by
  have mask_field_ones : (0x9F#8 : Byte).extractLsb' 3 2 = BitVec.allOnes 2 := by decide
  have field_kept : (b &&& 0x9F#8).extractLsb' 3 2 = b.extractLsb' 3 2 := by
    rw [BitVec.extractLsb'_and, mask_field_ones, BitVec.and_allOnes]
  rw [cfgdec, field_kept]
  simp [cfgdec]

/-- Bytes that differ in the ignored bits alone have one Config. -/
theorem cfgdec_congr_of_mask {b b' : Byte} (h : b &&& 0x9F#8 = b' &&& 0x9F#8) : cfgdec b = cfgdec b' := by
  rw [← cfgdec_and_mask b, h, cfgdec_and_mask]

/-- The byte of a Config is any byte with that Config, its ignored bits cleared. -/
theorem configByte_cfgdec (b : Byte) : configByte (cfgdec b) = b &&& 0x9F#8 := by
  have byte_from_fields (b : Byte) : encodeCfg8 (cfgdec b).a { decodeCfgRest b with ii := 0#2 } = b &&& 0x9F#8 := by
    rw [encodeCfg8, amodeCode_cfgdec_a]
    revert b
    decide
  exact byte_from_fields b

/-- Settles O10: the byte of a Config has its ignored bits clear, and a byte has that Config exactly if it is that byte with
its ignored bits cleared. -/
theorem eachConfigComesFromFourBytes : Obligations.EachConfigComesFromFourBytes := by
  intro c
  refine ⟨configByte c, ?clear, fun b => ⟨fun hc => ?mask, fun hb => ?config⟩⟩
  case clear =>
    rw [← cfgdec_configByte c, configByte_cfgdec, BitVec.and_assoc]
    exact BitVec.and_zero
  case mask => rw [← hc, configByte_cfgdec]
  case config => rw [← cfgdec_and_mask, hb, cfgdec_configByte]

/-- Settles O37: each operation's bit stands in the byte at the place of its code. -/
theorem operationCodeIsThePermissionBit : Obligations.OperationCodeIsThePermissionBit := by
  intro b o
  cases o <;> rfl

end Sys2Proof

end


/-! ### What a step presents, refuses and leaves unchanged -/

section

namespace Sys2Proof.Machine

/-! The refusals -/

/-- A count above 64 is reserved (30_encoding.md R52, R56). -/
theorem countOk_eq_false_iff (n : BitVec 7) : countOk n = false ↔ 64 < n.toNat := by
  rw [Bool.eq_false_iff, ne_eq, countOk_iff, not_le]

/-- A step runs the instruction that the presented word decodes to. -/
theorem step_of_decode {s : State} {i : Instr} (h : decode s.fetch = .ok i) : step s = exec i s := by
  rw [step, h]

theorem step_of_decode_error {s : State} {p : Port} (h : decode s.fetch = .error p) :
    step s = .refused (.reservedPortCode p) := by
  rw [step, h]

/-- CHECK and PERM present the request's codes, so the port that those name as reserved is what the decoder names. -/
theorem decode_fetch_of_reserved {s : State} {p : Port} (hsel : s.sel = .check ∨ s.sel = .perm)
    (hreserved : decodeReq4 (req4 s.reqMode s.reqOp) = .error p) : decode s.fetch = .error p := by
  obtain hsel | hsel := hsel <;> simp [State.fetch, hsel, decode, hreserved]

theorem outputs_of_reserved {s : State} {p : Port} (hreserved : decodeReq4 (req4 s.reqMode s.reqOp) = .error p) :
    s.outputs = .error p := by
  simp [State.outputs, hreserved]

/-- Codes that are not reserved are some mode's and some operation's. -/
theorem exists_decode_of_ne_reserved {m o : BitVec 2} (hm : m ≠ 2#2) (ho : o ≠ 3#2) :
    ∃ mode op, decodeMode m = some mode ∧ decodeOp o = some op := by
  obtain ⟨mode, hmode⟩ := Option.ne_none_iff_exists'.mp (mt (decodeMode_eq_none_iff m).mp hm)
  obtain ⟨op, hop⟩ := Option.ne_none_iff_exists'.mp (mt (decodeOp_eq_none_iff o).mp ho)
  exact ⟨mode, op, hmode, hop⟩

section ReservedCount

variable {s : State} (hcount : 64 < s.nEntries.toNat)
include hcount

theorem withTable_of_reserved_count (k : Table → State) : withTable s k = .refused (.reservedPortCode .nEntries) :=
  (withTable_refused_iff ..).mpr ⟨(countOk_eq_false_iff _).mpr hcount, rfl⟩

theorem step_of_check_of_reserved_count (hsel : s.sel = .check) (hm : s.reqMode ≠ 2#2) (ho : s.reqOp ≠ 3#2) :
    step s = .refused (.reservedPortCode .nEntries) := by
  obtain ⟨mode, op, hmode, hop⟩ := exists_decode_of_ne_reserved hm ho
  rw [step_of_decode (decode_fetch_of_check hsel hmode hop), exec_checkInstr]
  exact withTable_of_reserved_count hcount _

theorem outputs_of_reserved_count (hm : s.reqMode ≠ 2#2) (ho : s.reqOp ≠ 3#2) : s.outputs = .error .nEntries := by
  obtain ⟨mode, op, hmode, hop⟩ := exists_decode_of_ne_reserved hm ho
  have codes_decode := (decodeReq4_eq_ok_iff ..).mpr ⟨hmode, hop⟩
  simp [State.outputs, codes_decode, (countOk_eq_false_iff _).mpr hcount]

end ReservedCount

/-! What each selection presents -/

section Presented

variable {s : State}

theorem decode_fetch_of_matchScan (hsel : s.sel = .matchScan) : decode s.fetch = .ok (.matchScan s.reqAddr) := by
  simp only [State.fetch, hsel, decode]

theorem decode_fetch_of_cfgdec (hsel : s.sel = .cfgdec) : decode s.fetch = .ok (.cfgdec s.slotEntry.cfg) := by
  simp only [State.fetch, hsel, decode]

theorem decode_fetch_of_rng (hsel : s.sel = .rng) :
    decode s.fetch = .ok (decodeRng s.slotEntry.cfg s.slotEntry.addr s.slotPrev) := by
  simp only [State.fetch, hsel, decode]

theorem decode_fetch_of_perm {m : Mode} {o : Operation} (hsel : s.sel = .perm) (hm : decodeMode s.reqMode = some m)
    (ho : decodeOp s.reqOp = some o) : decode s.fetch = .ok (.perm (cfgdec s.slotEntry.cfg) m o) := by
  have codes_decode := (decodeReq4_eq_ok_iff ..).mpr ⟨hm, ho⟩
  simp only [State.fetch, hsel, decode, codes_decode]

end Presented

/-- The entry at an index is the predecessor of the next index (41_range_resolver.md R69). -/
theorem prevAddr_succ {T : Table} {i : Nat} {e : PmpEntry} (h : T[i]? = some e) : prevAddr T (i + 1) = e.addr := by
  simp [prevAddr, h]

/-- Slot 0 has predecessor value 0 (41_range_resolver.md R69). -/
theorem slotPrev_of_zero {s : State} (h : s.slot = 0) : s.slotPrev = 0#64 := by
  simp [State.slotPrev, h, prevAddr]

/-- A later slot's predecessor value is the address value of the slot below (41_range_resolver.md R69). -/
theorem slotPrev_of_succ {s : State} {j : Fin 64} (h : j.val + 1 = s.slot.val) : s.slotPrev = (s.slots.get j).addr := by
  rw [State.slotPrev, ← h]
  exact prevAddr_succ (by simp [Vector.get])

/-- The four RNG operations are one resolution by the mode of field A (41_range_resolver.md R80). -/
theorem exec_decodeRng (b : Byte) (addr prev : Addr) (s : State) :
    exec (decodeRng b addr prev) s = .next (s.withRange (resolve (cfgdec b).a addr prev)) := by
  rw [decodeRng, cfgdec]
  cases decodeAMode (b.extractLsb' 3 2) <;> rfl

/-! What a step of each stage answers -/

section Answers

variable {s : State}

theorem step_of_matchScan (hsel : s.sel = .matchScan) (hcount : countOk s.nEntries = true) :
    step s = .next (s.withFound (matchEntry s.table s.reqAddr)) := by
  rw [step_of_decode (decode_fetch_of_matchScan hsel)]
  exact (execMatchScan_next_iff ..).mpr ⟨hcount, rfl⟩

theorem step_of_cfgdec (hsel : s.sel = .cfgdec) : step s = .next (s.withDecoded (cfgdec s.slotEntry.cfg)) := by
  rw [step_of_decode (decode_fetch_of_cfgdec hsel), exec_cfgdec]

theorem step_of_rng (hsel : s.sel = .rng) :
    step s = .next (s.withRange (resolve (cfgdec s.slotEntry.cfg).a s.slotEntry.addr s.slotPrev)) := by
  rw [step_of_decode (decode_fetch_of_rng hsel), exec_decodeRng]

theorem step_of_perm {m : Mode} {o : Operation} (hsel : s.sel = .perm) (hm : decodeMode s.reqMode = some m)
    (ho : decodeOp s.reqOp = some o) : step s = .next (s.withVerdict (perm (cfgdec s.slotEntry.cfg) m o)) := by
  rw [step_of_decode (decode_fetch_of_perm hsel hm ho), exec_perm]

end Answers

/-! What an evaluation delivers -/

/-- A result is the evaluation's exactly if its three parts are. -/
theorem eq_evaluate_iff (x : Outputs) (T : Table) (a : Addr) (m : Mode) (o : Operation) :
    x = evaluate T a m o ↔ x.allowed = allowedBit (check T a m o) ∧ x.matched = matchedBit (matchEntry T a) ∧
      x.matchIdx = matchIdxBits (matchEntry T a) := by
  cases x
  simp [evaluate]

/-- A delivered result follows the inputs exactly if it is what the output ports show, wherever they show something. -/
theorem outputsFollow_iff (s : State) : OutputsFollow s ↔ ∀ x, s.outputs = .ok x → s.delivered = x := by
  simp only [OutputsFollow, State.outputs_eq_ok_iff, ← eq_evaluate_iff]
  constructor
  · rintro follows x ⟨hcount, m, o, hm, ho, rfl⟩
    exact follows m o hcount hm ho
  · intro follows m o hcount hm ho
    exact follows _ ⟨hcount, m, o, hm, ho, rfl⟩

/-- What an instruction answers with is written in one of the model's own fields, and nothing else is
(10_state.md R18, R19). -/
theorem exec_next_cases {i : Instr} {s t : State} (h : exec i s = .next t) :
    (∃ x, t = s.withDelivered x) ∨ (∃ m, t = s.withFound m) ∨ (∃ c, t = s.withDecoded c) ∨ (∃ r, t = s.withRange r) ∨
      ∃ v, t = s.withVerdict v := by
  have delivers {m a o} (hcheck : evalCheck o m a s = .next t) : ∃ x, t = s.withDelivered x := by
    obtain ⟨-, rfl⟩ := (evalCheck_next_iff ..).mp hcheck
    exact ⟨_, rfl⟩
  cases i with
  | checkR => exact .inl (delivers h)
  | checkW => exact .inl (delivers h)
  | checkX => exact .inl (delivers h)
  | matchScan a =>
    obtain ⟨-, rfl⟩ := (execMatchScan_next_iff ..).mp h
    exact .inr (.inl ⟨_, rfl⟩)
  | cfgdec => cases h; exact .inr (.inr (.inl ⟨_, rfl⟩))
  | rngOff | rngTor | rngNa4 | rngNapot => cases h; exact .inr (.inr (.inr (.inl ⟨_, rfl⟩)))
  | perm => cases h; exact .inr (.inr (.inr (.inr ⟨_, rfl⟩)))

/-- A step leaves the outputs as they are, and delivers them or leaves the delivered result as it is. -/
theorem step_outputs_and_delivered {s t : State} (h : step s = .next t) :
    t.outputs = s.outputs ∧ (t.delivered = s.delivered ∨ s.outputs = .ok t.delivered) := by
  obtain ⟨-, m, o, hm, ho, hcount, rfl⟩ | ⟨-, -, rfl⟩ | ⟨-, rfl⟩ | ⟨-, rfl⟩ | ⟨-, m, o, -, -, rfl⟩ := step_cases h
  case inl => exact ⟨rfl, .inr ((s.outputs_eq_ok_iff _).mpr ⟨hcount, m, o, hm, ho, rfl⟩)⟩
  all_goals exact ⟨rfl, .inl rfl⟩

/-- A step of CHECK that answers delivers what the output ports show (44_top_level_check.md R105). -/
theorem outputs_of_check_step {s t : State} (hsel : s.sel = .check) (h : step s = .next t) :
    s.outputs = .ok t.delivered := by
  obtain ⟨-, m, o, hm, ho, hcount, rfl⟩ | ⟨hsel', -⟩ | ⟨hsel', -⟩ | ⟨hsel', -⟩ | ⟨hsel', -⟩ := step_cases h
  case inl => exact (s.outputs_eq_ok_iff _).mpr ⟨hcount, m, o, hm, ho, rfl⟩
  all_goals cases hsel.symm.trans hsel'

/-! The statements -/

/-- Settles O6: a reserved code is what the decoder and the outputs name, a reserved count what the reading of the table
and the outputs do where the codes decode. -/
theorem reservedPortCodesAreRefused : Obligations.ReservedPortCodesAreRefused := by
  intro s
  have mode_named (hm : s.reqMode = 2#2) : decodeReq4 (req4 s.reqMode s.reqOp) = .error .reqMode :=
    hm ▸ decodeReq4_of_reserved_mode s.reqOp
  have op_named (hm : s.reqMode ≠ 2#2) (ho : s.reqOp = 3#2) : decodeReq4 (req4 s.reqMode s.reqOp) = .error .reqOp :=
    ho ▸ decodeReq4_of_reserved_op hm
  refine ⟨fun hsel hm => ?mode, fun hsel hm ho => ?op, fun hsel hm ho hcount => ?count, fun hsel hcount => ?matchCount,
    fun hm => ?outputsMode, fun hm ho => ?outputsOp, fun hm ho hcount => ?outputsCount⟩
  case mode => exact step_of_decode_error (decode_fetch_of_reserved hsel (mode_named hm))
  case op => exact step_of_decode_error (decode_fetch_of_reserved hsel (op_named hm ho))
  case count => exact step_of_check_of_reserved_count hcount hsel hm ho
  case matchCount =>
    rw [step_of_decode (decode_fetch_of_matchScan hsel)]
    exact withTable_of_reserved_count hcount fun T => s.withFound (matchEntry T s.reqAddr)
  case outputsMode => exact outputs_of_reserved (mode_named hm)
  case outputsOp => exact outputs_of_reserved (op_named hm ho)
  case outputsCount => exact outputs_of_reserved_count hcount hm ho

/-- Settles O7: it is the step's own equation where the presented word decodes. -/
theorem stepRunsTheDecodedInstruction : Obligations.StepRunsTheDecodedInstruction := fun _ _ => step_of_decode

/-- Settles O8: a step runs what the presented word decodes to, and the word is the selection's; a slot's predecessor value
is 0 for slot 0 and the value of the slot below for the others. -/
theorem stepPresentsThePorts : Obligations.StepPresentsThePorts := by
  refine ⟨fun s m o hsel hm ho => ?check, fun s hsel => ?matchScan, fun s hsel => ?cfgdec, fun s m o hsel hm ho => ?perm,
    fun s hsel hslot => ?rngFirst, fun s i j hsel hslot hbelow => ?rngLater⟩
  case check => exact step_of_decode (decode_fetch_of_check hsel hm ho)
  case matchScan => exact step_of_decode (decode_fetch_of_matchScan hsel)
  case cfgdec => exact step_of_decode (decode_fetch_of_cfgdec hsel)
  case perm => exact step_of_decode (decode_fetch_of_perm hsel hm ho)
  case rngFirst => rw [step_of_decode (decode_fetch_of_rng hsel), slotPrev_of_zero hslot, State.slotEntry, hslot]
  case rngLater =>
    subst hslot
    rw [step_of_decode (decode_fetch_of_rng hsel), slotPrev_of_succ hbelow, State.slotEntry]

/-- Settles O12: RNG.OFF answers with no range, in the range's own field. -/
theorem rngOffDefinesNoRange : Obligations.RngOffDefinesNoRange := fun _ _ => rfl

/-- Settles O22: a step of the resolver answers with the resolution of field A and the two address values. -/
theorem resolverReadsOnlyItsOperands : Obligations.ResolverReadsOnlyItsOperands := by
  intro s s' hsel hsel' hmode haddr hprev
  refine ⟨_, _, step_of_rng hsel, step_of_rng hsel', ?_⟩
  have same_mode : (cfgdec s.slotEntry.cfg).a = (cfgdec s'.slotEntry.cfg).a :=
    (decodeAMode_of_mask hmode).trans (decodeAMode_of_mask rfl).symm
  have same_addr : s.slotEntry.addr = s'.slotEntry.addr := haddr
  rw [State.withRange_range, State.withRange_range, same_mode, same_addr, hprev]

/-- Settles O45: each answer is written in a field that is no input. -/
theorem noInstructionWritesAnInput : Obligations.NoInstructionWritesAnInput := by
  intro i s t hexec
  obtain ⟨_, rfl⟩ | ⟨_, rfl⟩ | ⟨_, rfl⟩ | ⟨_, rfl⟩ | ⟨_, rfl⟩ := exec_next_cases hexec
  all_goals exact ⟨⟨⟨rfl, rfl, rfl, rfl, rfl⟩, rfl, rfl⟩, rfl⟩

/-- Settles O47: the outputs are the same after the step, and the delivered result is either what it was, which followed
them, or what they are. -/
theorem stepKeepsOutputsFollowingInputs : Obligations.StepKeepsOutputsFollowingInputs := by
  intro s t hfollow hstep
  rw [outputsFollow_iff] at hfollow ⊢
  obtain ⟨same_outputs, kept | fresh⟩ := step_outputs_and_delivered hstep
  · rwa [same_outputs, kept]
  · intro x hx
    rw [same_outputs, fresh] at hx
    exact Except.ok.inj hx

/-- Settles O48: a step of CHECK delivers the outputs, which it leaves as they are. -/
theorem checkStepMakesOutputsFollow : Obligations.CheckStepMakesOutputsFollow := by
  intro s t hsel hstep
  have shown := outputs_of_check_step hsel hstep
  obtain ⟨same_outputs, -⟩ := step_outputs_and_delivered hstep
  refine ⟨(outputsFollow_iff t).mpr fun x hx => ?_, shown, same_outputs.trans shown⟩
  rw [same_outputs, shown] at hx
  exact Except.ok.inj hx

/-- Settles O49: at reset the outputs are evaluated on the empty table, to the result the reset state holds. -/
theorem resetOutputsFollowInputs : Obligations.ResetOutputsFollowInputs := by
  have shown : State.reset.outputs = .ok State.reset.delivered := by decide
  refine ⟨(outputsFollow_iff _).mpr fun x hx => ?_, shown⟩
  exact Except.ok.inj (shown.symm.trans hx)

/-- Settles O50: a step changes nothing that its selection presents, so the second one writes the same answer into the same
field. -/
theorem askingTwiceChangesNothing : Obligations.AskingTwiceChangesNothing := by
  intro s t hstep
  obtain ⟨hsel, m, o, hm, ho, hcount, rfl⟩ | ⟨hsel, hcount, rfl⟩ | ⟨hsel, rfl⟩ | ⟨hsel, rfl⟩ | ⟨hsel, m, o, hm, ho, rfl⟩ :=
    step_cases hstep
  · exact step_of_check hsel ((State.outputs_eq_ok_iff ..).mpr ⟨hcount, m, o, hm, ho, rfl⟩)
  · exact step_of_matchScan hsel hcount
  · exact step_of_cfgdec hsel
  · exact step_of_rng hsel
  · exact step_of_perm hsel hm ho

/-! The outputs read the table and the request ports only -/

/-- The outputs depend on the slots through the table alone (10_state.md R26). -/
theorem outputs_congr {s s' : State} (hcount : s.nEntries = s'.nEntries) (htable : s.table = s'.table)
    (haddr : s.reqAddr = s'.reqAddr) (hm : s.reqMode = s'.reqMode) (ho : s.reqOp = s'.reqOp) :
    s.outputs = s'.outputs := by
  simp only [State.outputs, hcount, htable, haddr, hm, ho]

/-- Settles O51: equal inputs show equal outputs, which are what the two steps deliver. -/
theorem equalInputsGiveEqualResults : Obligations.EqualInputsGiveEqualResults := by
  rintro s s' ⟨hslots, hcount, haddr, hm, ho⟩
  have same_outputs : s.outputs = s'.outputs :=
    outputs_congr hcount (by rw [State.table, State.table, hslots, hcount]) haddr hm ho
  refine ⟨same_outputs, fun t hsel hsel' hstep => ?_⟩
  have shown := outputs_of_check_step hsel hstep
  exact ⟨_, step_of_check hsel' (same_outputs ▸ shown), (State.withDelivered_delivered ..).symm⟩

/-- The table of the ports is the list of as many entries as are counted whose entry at each counted slot is the slot's. -/
theorem table_eq_of_slots {s : State} {T : Table} (hlength : T.length = min s.nEntries.toNat 64)
    (hslots : ∀ i : Fin 64, i.val < s.nEntries.toNat → T[i.val]? = some (s.slots.get i)) : s.table = T := by
  have table_length : s.table.length = min s.nEntries.toNat 64 := by simp [State.table]
  refine List.ext_getElem? fun i => ?_
  by_cases hi : i < min s.nEntries.toNat 64
  · have hslot : i < 64 := by omega
    have hcount : i < s.nEntries.toNat := by omega
    exact (s.table_getElem? ⟨i, hslot⟩ hcount).trans (hslots ⟨i, hslot⟩ hcount).symm
  · rw [List.getElem?_eq_none (by omega), List.getElem?_eq_none (by omega)]

/-- Settles O52: equal slots below the count are one table, and the outputs, which a step of CHECK delivers, read only
that. -/
theorem slotsBeyondTheCountDoNotMatter : Obligations.SlotsBeyondTheCountDoNotMatter := by
  intro s s' hcount haddr hm ho hslots
  have same_table : s.table = s'.table := by
    refine table_eq_of_slots (by simp [State.table, hcount]) fun i hi => ?_
    rw [hslots i hi]
    exact s'.table_getElem? i (hcount ▸ hi)
  have same_outputs := outputs_congr hcount same_table haddr hm ho
  refine ⟨same_outputs, fun hlegal hsel hsel' => ?_⟩
  obtain ⟨_, _, -, shown⟩ := hlegal.outputs
  exact ⟨_, _, step_of_check hsel shown, step_of_check hsel' (same_outputs ▸ shown), rfl⟩

/-! Driven ports -/

section Driven

variable (s : State) {T : Table} (a : Addr) (m : Mode) (o : Operation) (hlength : T.length ≤ 64)
include hlength

theorem drive_nEntries_toNat : (s.drive T a m o).nEntries.toNat = T.length := by
  rw [State.drive_nEntries, BitVec.toNat_ofNat]
  omega

/-- A driven table is the table the ports present (45_loader_and_cli.md R123). -/
theorem drive_table : (s.drive T a m o).table = T := by
  refine table_eq_of_slots (by rw [drive_nEntries_toNat s a m o hlength]; omega) fun i hi => ?_
  rw [drive_nEntries_toNat s a m o hlength] at hi
  simp [Vector.get, hi]

/-- The outputs follow a driven table and request at once (70_reset_and_hazards.md R142). -/
theorem drive_outputs : (s.drive T a m o).outputs = .ok (evaluate T a m o) := by
  rw [State.outputs_eq_ok_iff, drive_table s a m o hlength, countOk_iff, drive_nEntries_toNat s a m o hlength]
  exact ⟨hlength, m, o, by simp, by simp, by simp⟩

end Driven

/-- Settles O54: the driven table and request are what the ports present, so the outputs are their evaluation, and the step
of CHECK delivers it. -/
theorem drivenPortsAreEvaluated : Obligations.DrivenPortsAreEvaluated := by
  intro s T a m o hlength
  have shown := drive_outputs s a m o hlength
  exact ⟨drive_table s a m o hlength, _, _, shown, rfl, rfl, rfl,
    step_of_check (State.drive_sel ..) shown, State.withDelivered_delivered ..⟩

end Sys2Proof.Machine

end


/-! ### The ranges of NA4 and NAPOT -/

section

namespace Sys2Proof.Machine

/-! The range of a mask -/

/-- Clearing the low `t` bits rounds down to a multiple of `2^t`. -/
theorem toNat_and_not_lowmask (x : Addr) (t : Nat) : (x &&& ~~~lowmask t).toNat = x.toNat / 2 ^ t * 2 ^ t := by
  have shifted : x &&& ~~~lowmask t = x >>> t <<< t := by
    refine BitVec.eq_of_getLsbD_eq fun i hi => ?_
    by_cases hit : i < t
    · simp [getLsbD_lowmask, hi, hit]
    · have unmasked : (lowmask t).getLsbD i = false := by simp [getLsbD_lowmask, hit]
      simpa [hi, hit, Nat.add_sub_cancel' (not_lt.mp hit)] using fun _ => unmasked
  have rounded_le : x.toNat / 2 ^ t * 2 ^ t ≤ x.toNat := Nat.div_mul_le_self ..
  rw [shifted, BitVec.toNat_shiftLeft, BitVec.toNat_ushiftRight, Nat.shiftRight_eq_div_pow, Nat.shiftLeft_eq,
    Nat.mod_eq_of_lt (by omega)]

/-- The end of a mask's range is an integer sum, whatever the mask (41_range_resolver.md R72). -/
theorem rangeOfMask_stop_toNat (addr mask : Addr) :
    (rangeOfMask addr mask).stop.toNat = (rangeOfMask addr mask).start.toNat + (mask + 1#64).toNat := by
  have stop_width (x : Addr) : (x.setWidth 65).toNat = x.toNat := BitVec.toNat_setWidth_of_le (by decide)
  simp only [rangeOfMask, BitVec.toNat_add, stop_width]
  omega

theorem rangeOfMask_start_toNat (addr : Addr) (t : Nat) :
    (rangeOfMask addr (lowmask t)).start.toNat = addr.toNat / 2 ^ t * 2 ^ t :=
  toNat_and_not_lowmask addr t

/-- The mask of all 64 bits has size 0 and base 0 (41_range_resolver.md R74). -/
theorem rangeOfMask_lowmask_64 (addr : Addr) :
    rangeOfMask addr (lowmask 64) = { start := 0#64, stop := 0#65 } := by
  have all_ones : ~~~lowmask 64 = 0#64 := by decide
  have size_zero : lowmask 64 + 1#64 = 0#64 := by decide
  simp [rangeOfMask, all_ones, size_zero]

section Block

variable (addr : Addr) {t : Nat} (ht : t < 64)
include ht

/-- A mask of fewer than 64 bits has size `2^t`. -/
theorem rangeOfMask_lowmask_stop_toNat :
    (rangeOfMask addr (lowmask t)).stop.toNat = (rangeOfMask addr (lowmask t)).start.toNat + 2 ^ t := by
  have size_fits : 2 ^ t < 2 ^ 64 := Nat.pow_lt_pow_right (by decide) ht
  have size_pos : 0 < 2 ^ t := Nat.two_pow_pos t
  rw [rangeOfMask_stop_toNat, BitVec.toNat_add, toNat_lowmask ht.le, BitVec.toNat_ofNat]
  omega

/-- A mask's range holds the addresses whose bits above the mask are the entry's. -/
theorem rangeOfMask_lowmask_contains_iff (a : Addr) :
    (rangeOfMask addr (lowmask t)).contains a = true ↔ a.toNat / 2 ^ t = addr.toNat / 2 ^ t := by
  rw [Range.contains_iff, rangeOfMask_lowmask_stop_toNat addr ht, rangeOfMask_start_toNat,
    Nat.div_eq_iff (Nat.two_pow_pos t)]
  have size_pos : 0 < 2 ^ t := Nat.two_pow_pos t
  omega

end Block

/-! NA4 -/

/-- An NA4 range is that of the mask of the two low bits. -/
theorem rngNa4_eq_rangeOfMask (addr : Addr) : rngNa4 addr = rangeOfMask addr (lowmask 2) := rfl

theorem rngNa4_start_toNat (addr : Addr) : (rngNa4 addr).start.toNat = addr.toNat / 4 * 4 :=
  rangeOfMask_start_toNat addr 2

theorem rngNa4_stop_toNat (addr : Addr) : (rngNa4 addr).stop.toNat = (rngNa4 addr).start.toNat + 4 := by
  rw [rngNa4_eq_rangeOfMask, rangeOfMask_lowmask_stop_toNat addr (by decide : 2 < 64)]
  norm_num

theorem rngNa4_contains_iff (addr a : Addr) :
    (rngNa4 addr).contains a = true ↔ a.toNat / 4 = addr.toNat / 4 := by
  rw [rngNa4_eq_rangeOfMask, rangeOfMask_lowmask_contains_iff addr (by decide : 2 < 64)]
  norm_num

/-- Bits 63:2 of two values agree exactly if their quotients by 4 do. -/
theorem extractLsb'_two_eq_iff (a b : Addr) : a.extractLsb' 2 62 = b.extractLsb' 2 62 ↔ a.toNat / 4 = b.toNat / 4 := by
  simp only [← BitVec.toNat_inj, BitVec.extractLsb'_toNat, Nat.shiftRight_eq_div_pow]
  omega

/-- Settles O14: the answer is `withRange`, which writes the one field; the start is the value rounded down to 4. -/
theorem rngNa4IsFourAlignedBytes : Obligations.RngNa4IsFourAlignedBytes := by
  intro f addr s
  have start_rounded := rngNa4_start_toNat addr
  exact ⟨s.withRange (some (rngNa4 addr)), rngNa4 addr, rfl, rfl, rfl, by omega, by omega, by omega,
    rngNa4_stop_toNat addr⟩

/-- Settles O15: both sides say that the quotients by 4 are equal, and the last quotient's range ends at `2^64`. -/
theorem na4ContainsByUpperBits : Obligations.Na4ContainsByUpperBits := by
  refine ⟨fun addr a => ?upper, fun addr htop => ⟨?stop, ?last⟩⟩
  case upper => rw [rngNa4_contains_iff, extractLsb'_two_eq_iff]
  case stop =>
    rw [rngNa4_stop_toNat, rngNa4_start_toNat]
    omega
  case last =>
    have MAX_value : MAX.toNat = 2 ^ 64 - 1 := rfl
    rw [rngNa4_contains_iff]
    omega

/-! The low run of ones -/

/-- A bit is in the low run of ones exactly if it and every bit below it are 1 (00_scope.md R12). -/
theorem lt_tz1_iff (v : Addr) (i : Nat) : i < tz1 v ↔ ∀ j, j ≤ i → v.getLsbD j = true := by
  constructor
  · intro hi j hj
    exact getLsbD_of_lt_tz1 (by omega)
  · intro hones
    by_contra hi
    by_cases hfull : tz1 v < 64
    · exact Bool.false_ne_true ((getLsbD_tz1 hfull).symm.trans (hones _ (not_lt.mp hi)))
    · exact absurd (hones i le_rfl) (by simp [BitVec.getLsbD_of_ge v i (by omega)])

/-- The length of the low run, from its ones and the zero that ends it. -/
theorem tz1_eq_of_bits {v : Addr} {t : Nat} (hones : ∀ i, i < t → v.getLsbD i = true) (hzero : v.getLsbD t = false) :
    tz1 v = t := by
  apply Nat.le_antisymm
  · by_contra hlt
    exact Bool.false_ne_true (hzero.symm.trans (getLsbD_of_lt_tz1 (not_le.mp hlt)))
  · by_contra hlt
    exact absurd ((lt_tz1_iff v (tz1 v)).mpr fun j hj => hones j (by omega)) (lt_irrefl _)

/-- The low run is all 64 bits exactly if every bit is 1. -/
theorem tz1_eq_64_iff (v : Addr) : tz1 v = 64 ↔ ∀ i, i < 64 → v.getLsbD i = true := by
  constructor
  · intro hfull i hi
    exact getLsbD_of_lt_tz1 (hfull ▸ hi)
  · intro hones
    exact tz1_eq_of_bits hones (BitVec.getLsbD_of_ge v 64 le_rfl)

/-! The NAPOT mask by the bits of the address value -/

/-- Every bit of `x` below bit `i` is 0. -/
def ZeroBelow (x : Addr) (i : Nat) : Prop := ∀ j, j < i → x.getLsbD j = false

theorem ZeroBelow.mono {x : Addr} {i j : Nat} (h : ZeroBelow x i) (hji : j ≤ i) : ZeroBelow x j :=
  fun k hk => h k (hk.trans_le hji)

theorem zeroBelow_succ_iff {x : Addr} {i : Nat} : ZeroBelow x (i + 1) ↔ ZeroBelow x i ∧ x.getLsbD i = false := by
  simp only [ZeroBelow, Nat.lt_succ_iff_lt_or_eq, or_imp, forall_and, forall_eq]

/-- A value with a bit below `i` has a lowest one. -/
theorem exists_lowest_of_not_zeroBelow {x : Addr} {i : Nat} (h : ¬ZeroBelow x i) :
    ∃ k, k < i ∧ x.getLsbD k = true ∧ ZeroBelow x k := by
  induction i with
  | zero => exact absurd nofun h
  | succ i ih =>
    by_cases hbelow : ZeroBelow x i
    · exact ⟨i, by omega, by simpa using fun hbit => h (zeroBelow_succ_iff.mpr ⟨hbelow, hbit⟩), hbelow⟩
    · obtain ⟨k, hk, hlowest⟩ := ih hbelow
      exact ⟨k, by omega, hlowest⟩

/-- Negation keeps the bits up to the lowest 1 and flips those above it. -/
theorem getLsbD_neg_iff (x : Addr) {i : Nat} (hi : i < 64) :
    (-x).getLsbD i = true ↔ (x.getLsbD i = true ↔ ZeroBelow x i) := by
  have some_below : (∃ j, j < i ∧ x.getLsbD j = true) ↔ ¬ZeroBelow x i := by simp [ZeroBelow]
  rw [BitVec.getLsbD_neg]
  by_cases hbelow : ZeroBelow x i <;> simp only [hi, some_below, hbelow] <;> simp

/-- Subtracting 1 flips the bits up to the lowest 1 and keeps those above it. -/
theorem getLsbD_sub_one_iff (x : Addr) {i : Nat} (hi : i < 64) :
    (x - 1#64).getLsbD i = true ↔ ¬(x.getLsbD i = true ↔ ZeroBelow x i) := by
  rw [← getLsbD_neg_iff x hi, ← BitVec.not_neg, BitVec.getLsbD_not]
  simp [hi]

/-- Adding 1 flips a bit exactly if every bit below it is 1. -/
theorem getLsbD_add_one_iff (w : Addr) {i : Nat} (hi : i < 64) :
    (w + 1#64).getLsbD i = true ↔ ¬(w.getLsbD i = true ↔ ∀ j, j < i → w.getLsbD j = true) := by
  have as_negation : w + 1#64 = -(~~~w) := by rw [BitVec.neg_eq_not_add, BitVec.not_not]
  have flipped (j : Nat) (hj : j < 64) : (~~~w).getLsbD j = true ↔ ¬w.getLsbD j = true := by simp [hj]
  have ones_below : ZeroBelow (~~~w) i ↔ ∀ j, j < i → w.getLsbD j = true :=
    forall₂_congr fun j hj => by rw [Bool.eq_false_iff, ne_eq, flipped j (hj.trans hi), not_not]
  rw [as_negation, getLsbD_neg_iff _ hi, ones_below, flipped i hi]
  tauto

/-- Settles O17: bit by bit, `w & ~(w + 1)` keeps a 1 that adding 1 flips, so one with only ones below it. -/
theorem lowRunMaskWithoutALoop : Obligations.LowRunMaskWithoutALoop := by
  intro w
  refine BitVec.eq_of_getLsbD_eq fun i hi => ?_
  have in_run : i < tz1 w ↔ w.getLsbD i = true ∧ ∀ j, j < i → w.getLsbD j = true := by
    rw [lt_tz1_iff]
    simp only [Nat.le_iff_lt_or_eq, or_imp, forall_and, forall_eq]
    exact and_comm
  have flipped : (~~~(w + 1#64)).getLsbD i = true ↔ (w.getLsbD i = true ↔ ∀ j, j < i → w.getLsbD j = true) := by
    rw [← not_iff_not, ← getLsbD_add_one_iff w hi, BitVec.getLsbD_not]
    simp [hi]
  rw [Bool.eq_iff_iff, getLsbD_lowmask, BitVec.getLsbD_and, Bool.and_eq_true, Bool.and_eq_true, flipped,
    decide_eq_true_iff, decide_eq_true_iff, in_run]
  tauto

/-- `addr | (addr - 1)` sets the zeros below the lowest 1 (41_range_resolver.md R72). -/
theorem getLsbD_or_sub_one_iff (x : Addr) {i : Nat} (hi : i < 64) :
    (x ||| (x - 1#64)).getLsbD i = true ↔ x.getLsbD i = true ∨ ZeroBelow x i := by
  rw [BitVec.getLsbD_or, Bool.or_eq_true, getLsbD_sub_one_iff x hi]
  tauto

/-- `addr ^ (addr - 1)` is the bits up to the lowest 1 (90_conflicts.md C1). -/
theorem getLsbD_literalMask_iff (x : Addr) {i : Nat} (hi : i < 64) :
    (literalMask x).getLsbD i = true ↔ ZeroBelow x i := by
  rw [literalMask, BitVec.getLsbD_xor, Bool.xor_iff_ne, ne_eq, Bool.eq_iff_iff, getLsbD_sub_one_iff x hi]
  tauto

/-- `addr & -addr` is the lowest 1 alone. -/
theorem getLsbD_and_neg_iff (x : Addr) {i : Nat} (hi : i < 64) :
    (x &&& (0#64 - x)).getLsbD i = true ↔ x.getLsbD i = true ∧ ZeroBelow x i := by
  rw [BitVec.zero_sub, BitVec.getLsbD_and, Bool.and_eq_true, getLsbD_neg_iff x hi]
  tauto

/-- The number of ones in the NAPOT mask of an address value (41_range_resolver.md R72). -/
def napotBits (addr : Addr) : Nat := tz1 (addr ||| (addr - 1#64))

theorem napotMask_eq_lowmask (addr : Addr) : napotMask addr = lowmask (napotBits addr) := rfl

theorem rngNapot_eq_rangeOfMask (addr : Addr) : rngNapot addr = rangeOfMask addr (lowmask (napotBits addr)) := rfl

theorem napotBits_le (addr : Addr) : napotBits addr ≤ 64 := tz1_le _

/-- Bit 0 is always in the NAPOT mask. -/
theorem one_le_napotBits (addr : Addr) : 1 ≤ napotBits addr := by
  refine (lt_tz1_iff _ 0).mpr fun j hj => ?_
  obtain rfl : j = 0 := Nat.le_zero.mp hj
  exact (getLsbD_or_sub_one_iff addr (by decide)).mpr (.inr nofun)

/-- The bit of the address value above its mask is 0, where there is one. -/
theorem getLsbD_napotBits {addr : Addr} (h : napotBits addr < 64) : addr.getLsbD (napotBits addr) = false := by
  have ends_run := getLsbD_tz1 h
  rw [BitVec.getLsbD_or, Bool.or_eq_false_iff] at ends_run
  exact ends_run.1

end Sys2Proof.Machine

end


/-! ### Which addresses a NAPOT range holds -/

section

namespace Sys2Proof.Machine

/-- Where the mask has all 64 bits the NAPOT range is [0, 0) (41_range_resolver.md R74). -/
theorem rngNapot_of_full {addr : Addr} (h : napotBits addr = 64) : rngNapot addr = { start := 0#64, stop := 0#65 } := by
  rw [rngNapot_eq_rangeOfMask, h, rangeOfMask_lowmask_64]

section Proper

variable {addr : Addr} (h : napotBits addr < 64)
include h

theorem rngNapot_stop_toNat : (rngNapot addr).stop.toNat = (rngNapot addr).start.toNat + 2 ^ napotBits addr :=
  rangeOfMask_lowmask_stop_toNat addr h

theorem rngNapot_contains_iff (a : Addr) :
    (rngNapot addr).contains a = true ↔ a.toNat / 2 ^ napotBits addr = addr.toNat / 2 ^ napotBits addr :=
  rangeOfMask_lowmask_contains_iff addr h a

/-- A NAPOT range holds its own address value, unless it holds nothing (41_range_resolver.md R78). -/
theorem rngNapot_contains_self : (rngNapot addr).contains addr = true := (rngNapot_contains_iff h addr).mpr rfl

/-- The bit above the mask is 0, so at least one more block of the range's size follows it (41_range_resolver.md R75). -/
theorem rngNapot_stop_lt : (rngNapot addr).stop.toNat < 2 ^ 64 := by
  have start_rounded : (rngNapot addr).start.toNat = addr.toNat / 2 ^ napotBits addr * 2 ^ napotBits addr :=
    rangeOfMask_start_toNat addr _
  have stop_above := rngNapot_stop_toNat h
  have even : addr.toNat / 2 ^ napotBits addr % 2 = 0 := by
    have zero_bit : addr.toNat.testBit (napotBits addr) = false := getLsbD_napotBits h
    rw [Nat.testBit_eq_decide_div_mod_eq, decide_eq_false_iff_not] at zero_bit
    omega
  obtain ⟨d, hd⟩ : ∃ d, 64 = napotBits addr + (d + 1) := ⟨63 - napotBits addr, by omega⟩
  have blocks : 2 ^ 64 = 2 * 2 ^ d * 2 ^ napotBits addr := by rw [hd]; ring
  have in_blocks : addr.toNat / 2 ^ napotBits addr < 2 * 2 ^ d := by
    rw [Nat.div_lt_iff_lt_mul (Nat.two_pow_pos _), ← blocks]
    exact addr.isLt
  calc (rngNapot addr).stop.toNat = (addr.toNat / 2 ^ napotBits addr + 1) * 2 ^ napotBits addr := by
        rw [stop_above, start_rounded, Nat.succ_mul]
    _ < 2 * 2 ^ d * 2 ^ napotBits addr := Nat.mul_lt_mul_of_pos_right (by omega) (Nat.two_pow_pos _)
    _ = 2 ^ 64 := blocks.symm

end Proper

/-- A NAPOT range that holds an address has a mask of fewer than 64 bits. -/
theorem napotBits_lt_of_contains {addr a : Addr} (h : (rngNapot addr).contains a = true) : napotBits addr < 64 := by
  refine lt_of_le_of_ne (napotBits_le addr) fun hfull => ?_
  rw [rngNapot_of_full hfull, Range.contains_iff] at h
  exact Nat.not_lt_zero _ h.2

/-- A NAPOT range holds nothing exactly if its mask has all 64 bits (41_range_resolver.md R74). -/
theorem rngNapot_empty_iff (addr : Addr) : (∀ a, (rngNapot addr).contains a = false) ↔ napotBits addr = 64 := by
  constructor
  · intro hempty
    by_contra hne
    have proper := lt_of_le_of_ne (napotBits_le addr) hne
    exact Bool.false_ne_true ((hempty addr).symm.trans (rngNapot_contains_self proper))
  · intro hfull a
    rw [Bool.eq_false_iff]
    exact fun hhit => (napotBits_lt_of_contains hhit).ne hfull

/-! The shape of the address value -/

/-- `2^n - 2^k` is the ones from bit `k` up to bit `n`. -/
theorem testBit_two_pow_sub_two_pow {k n : Nat} (h : k ≤ n) (i : Nat) :
    (2 ^ n - 2 ^ k).testBit i = (decide (k ≤ i) && decide (i < n)) := by
  obtain ⟨r, rfl⟩ := Nat.exists_eq_add_of_le h
  have factored : 2 ^ (k + r) - 2 ^ k = 2 ^ k * (2 ^ r - 1) := by rw [Nat.mul_sub, pow_add, Nat.mul_one]
  rw [factored, Nat.testBit_two_pow_mul, Nat.testBit_two_pow_sub_one]
  by_cases hki : k ≤ i
  · simp only [hki, decide_true, Bool.true_and, decide_eq_decide]
    omega
  · simp [hki]

/-- The mask has all 64 bits exactly if the address value is ones at the top and zeros below. -/
theorem napotBits_eq_64_iff (addr : Addr) : napotBits addr = 64 ↔ ∃ k, k ≤ 64 ∧ addr.toNat = 2 ^ 64 - 2 ^ k := by
  rw [napotBits, tz1_eq_64_iff]
  constructor
  · intro hones
    have ones_above {k i : Nat} (hi : i < 64) (hbit : addr.getLsbD k = true) (hki : k < i) : addr.getLsbD i = true :=
      ((getLsbD_or_sub_one_iff addr hi).mp (hones i hi)).resolve_right fun hzero =>
        Bool.false_ne_true ((hzero k hki).symm.trans hbit)
    by_cases hzero : ZeroBelow addr 64
    · exact ⟨64, le_rfl, congrArg BitVec.toNat (BitVec.eq_of_getLsbD_eq (y := 0#64) fun i hi => by simp [hzero i hi])⟩
    · obtain ⟨k, hk, hbit, hbelow⟩ := exists_lowest_of_not_zeroBelow hzero
      refine ⟨k, hk.le, Nat.eq_of_testBit_eq fun i => ?_⟩
      rw [testBit_two_pow_sub_two_pow hk.le, BitVec.testBit_toNat]
      by_cases hi : i < 64
      · obtain hlt | rfl | hgt := lt_trichotomy i k
        · simp [hbelow i hlt, hlt]
        · simp [hbit, hi]
        · simp [ones_above hi hbit hgt, hi, hgt.le]
      · simp [BitVec.getLsbD_of_ge addr i (by omega), hi]
  · rintro ⟨k, hk, hvalue⟩ i hi
    have bits (j : Nat) : addr.getLsbD j = (decide (k ≤ j) && decide (j < 64)) := by
      rw [BitVec.getLsbD, hvalue, testBit_two_pow_sub_two_pow hk]
    rw [getLsbD_or_sub_one_iff addr hi]
    by_cases hki : k ≤ i
    · exact .inl (by simp [bits, hki, hi])
    · exact .inr fun j hj => by simp [bits, show ¬k ≤ j by omega]

/-- `z` zeros and above them `r` ones, ended by a zero, have a mask of `z + r` bits. -/
theorem napotBits_of_shape {addr : Addr} {z r : Nat} (hr : 1 ≤ r) (hsmall : z + r < 64)
    (hshape : addr.toNat % 2 ^ (z + r + 1) = 2 ^ (z + r) - 2 ^ z) : napotBits addr = z + r := by
  have bits {i : Nat} (hi : i ≤ z + r) : addr.getLsbD i = (decide (z ≤ i) && decide (i < z + r)) := by
    rw [← testBit_two_pow_sub_two_pow (Nat.le_add_right z r), ← hshape, Nat.testBit_mod_two_pow]
    simp [BitVec.getLsbD, Nat.lt_succ_of_le hi]
  refine tz1_eq_of_bits (fun i hi => ?ones) ?zero
  case ones =>
    rw [getLsbD_or_sub_one_iff addr (by omega)]
    by_cases hzi : z ≤ i
    · exact .inl (by simp [bits hi.le, hzi, hi])
    · exact .inr fun j hj => by simp [bits (by omega : j ≤ z + r), show ¬z ≤ j by omega]
  case zero =>
    rw [Bool.eq_false_iff, ne_eq, getLsbD_or_sub_one_iff addr hsmall]
    rintro (hbit | hbelow)
    · simp [bits le_rfl] at hbit
    · exact absurd (hbelow z (by omega)) (by simp [bits (Nat.le_add_right z r)]; omega)

/-- Settles O16: the answer is `withRange`, which writes the one field, and the range is its mask's. -/
theorem rngNapotIsBaseAndSizeOfTheMask : Obligations.RngNapotIsBaseAndSizeOfTheMask := by
  intro f addr s
  refine ⟨s.withRange (some (rngNapot addr)), rngNapot addr, rfl, rfl, ?_⟩
  rintro w mask rfl rfl
  exact ⟨rfl, rangeOfMask_stop_toNat addr _⟩

/-- Settles O18: the shape fixes the mask's bits, and clearing them subtracts their value. -/
theorem napotRangeByShape : Obligations.NapotRangeByShape := by
  intro addr z r hr hsmall hshape
  have mask_bits := napotBits_of_shape hr hsmall hshape
  have start_rounded : (rngNapot addr).start.toNat = addr.toNat / 2 ^ (z + r) * 2 ^ (z + r) := by
    rw [← mask_bits]
    exact rangeOfMask_start_toNat addr _
  have cleared : addr.toNat % 2 ^ (z + r) = 2 ^ (z + r) - 2 ^ z := by
    rw [← Nat.mod_mod_of_dvd addr.toNat (Nat.pow_dvd_pow 2 (Nat.le_succ (z + r))), hshape]
    exact Nat.mod_eq_of_lt (Nat.sub_lt (Nat.two_pow_pos _) (Nat.two_pow_pos _))
  refine ⟨?_, by rw [rngNapot_stop_toNat (mask_bits ▸ hsmall), mask_bits]⟩
  rw [start_rounded, ← cleared]
  exact Nat.div_add_mod' ..

/-- Settles O19: a range holds nothing exactly if its mask is full, which it is for the 65 values, 0 among them. -/
theorem napotEmptyForExactly65Values : Obligations.NapotEmptyForExactly65Values :=
  ⟨rngNapot_of_full ((napotBits_eq_64_iff 0#64).mpr ⟨64, le_rfl, rfl⟩),
    fun addr => (rngNapot_empty_iff addr).trans (napotBits_eq_64_iff addr)⟩

/-- Settles O20: a full mask ends its range at 0, any other leaves room for a block above, so the end is a 64-bit value. -/
theorem napotNeverReachesTheTop : Obligations.NapotNeverReachesTheTop := by
  intro addr
  have stop_sum : (rngNapot addr).stop.toNat = (rngNapot addr).start.toNat + (napotMask addr + 1#64).toNat :=
    rangeOfMask_stop_toNat addr (napotMask addr)
  have stop_lt : (rngNapot addr).stop.toNat < 2 ^ 64 := by
    obtain hproper | hfull := (napotBits_le addr).lt_or_eq
    · exact rngNapot_stop_lt hproper
    · rw [rngNapot_of_full hfull]
      decide
  refine ⟨by omega, ?sum, ?last⟩
  case sum => rw [BitVec.toNat_add, ← stop_sum, Nat.mod_eq_of_lt stop_lt]
  case last =>
    have MAX_value : MAX.toNat = 2 ^ 64 - 1 := rfl
    rw [Bool.eq_false_iff, ne_eq, Range.contains_iff]
    omega

/-- Settles O21: the mask's bits give the size, the alignment and the block that the value stands in. -/
theorem nonEmptyNapotIsAlignedPowerOfTwo : Obligations.NonEmptyNapotIsAlignedPowerOfTwo := by
  intro addr a hhit
  have proper := napotBits_lt_of_contains hhit
  have start_rounded : (rngNapot addr).start.toNat = addr.toNat / 2 ^ napotBits addr * 2 ^ napotBits addr :=
    rangeOfMask_start_toNat addr _
  exact ⟨napotBits addr, one_le_napotBits addr, by omega, by rw [start_rounded, Nat.mul_mod_left],
    rngNapot_stop_toNat proper, rngNapot_contains_self proper⟩

/-! The literal formula -/

/-- A bit is in the adopted mask exactly if every bit up to it is 1 or has only zeros below it. -/
theorem getLsbD_napotMask_iff (addr : Addr) {i : Nat} (hi : i < 64) :
    (napotMask addr).getLsbD i = true ↔ ∀ j, j ≤ i → addr.getLsbD j = true ∨ ZeroBelow addr j := by
  rw [napotMask_eq_lowmask, getLsbD_lowmask, napotBits]
  simp only [hi, decide_true, Bool.true_and, decide_eq_true_iff, lt_tz1_iff]
  exact forall₂_congr fun j hj => getLsbD_or_sub_one_iff addr (hj.trans_lt hi)

/-- No 1 stands directly above the lowest 1, said bit by bit and as the formula of 95_test_vectors.md section 2.4. -/
theorem and_lowest_shifted_eq_zero_iff (addr : Addr) :
    addr &&& ((addr &&& (0#64 - addr)) <<< 1) = 0#64 ↔
      ∀ i, i + 1 < 64 → addr.getLsbD i = true → ZeroBelow addr i → addr.getLsbD (i + 1) = false := by
  constructor
  · intro hzero i hi hbit hbelow
    have lowest := (getLsbD_and_neg_iff addr (by omega : i < 64)).mpr ⟨hbit, hbelow⟩
    have shifted : ((addr &&& (0#64 - addr)) <<< 1).getLsbD (i + 1) = true := by
      rw [BitVec.getLsbD_shiftLeft, Nat.add_sub_cancel, lowest]
      simp [hi]
    have cleared : (addr &&& ((addr &&& (0#64 - addr)) <<< 1)).getLsbD (i + 1) = false := by
      rw [hzero, BitVec.getLsbD_zero]
    rwa [BitVec.getLsbD_and, shifted, Bool.and_true] at cleared
  · intro hlone
    refine BitVec.eq_of_getLsbD_eq fun i hi => ?_
    cases i with
    | zero => simp
    | succ i =>
      rw [BitVec.getLsbD_zero, Bool.eq_false_iff]
      intro hbit
      rw [BitVec.getLsbD_and, BitVec.getLsbD_shiftLeft] at hbit
      simp only [Bool.and_eq_true, Nat.add_sub_cancel, getLsbD_and_neg_iff addr (by omega : i < 64)] at hbit
      obtain ⟨habove, -, hlow, hbelow⟩ := hbit
      exact Bool.false_ne_true ((hlone i hi hlow hbelow).symm.trans habove)

/-- Settles O25: the literal mask ends at the lowest 1; the adopted one goes on past it exactly if a 1 stands directly
above it. -/
theorem literalMaskAgreesExactlyWhen : Obligations.LiteralMaskAgreesExactlyWhen := by
  intro addr
  rw [and_lowest_shifted_eq_zero_iff]
  constructor
  · intro hagree i hi hbit hbelow
    by_contra habove
    have in_adopted : (napotMask addr).getLsbD (i + 1) = true := by
      refine (getLsbD_napotMask_iff addr hi).mpr fun j hj => ?_
      obtain rfl | hlt := hj.eq_or_lt
      · exact .inl (by simpa using habove)
      · exact .inr (hbelow.mono (by omega))
    rw [← hagree, getLsbD_literalMask_iff addr hi] at in_adopted
    exact Bool.false_ne_true ((in_adopted i (by omega)).symm.trans hbit)
  · intro hlone
    refine BitVec.eq_of_getLsbD_eq fun i hi => ?_
    rw [Bool.eq_iff_iff, getLsbD_literalMask_iff addr hi, getLsbD_napotMask_iff addr hi]
    refine ⟨fun hbelow j hj => .inr (hbelow.mono hj), fun hrun => ?_⟩
    by_contra hnot
    obtain ⟨k, hk, hbit, hbelow⟩ := exists_lowest_of_not_zeroBelow hnot
    obtain habove | hzero := hrun (k + 1) hk
    · exact Bool.false_ne_true ((hlone k (by omega) hbit hbelow).symm.trans habove)
    · exact Bool.false_ne_true ((hzero k (by omega)).symm.trans hbit)

end Sys2Proof.Machine

end


/-! ### The matcher: what an entry's hit depends on -/

section

namespace Sys2Proof.Machine

/-! Hits by mode -/

/-- An index hits exactly if an entry stands there that hits with its predecessor value. -/
theorem hit_iff (T : Table) (i : Nat) (a : Addr) :
    hit T i a = true ↔ ∃ e, T[i]? = some e ∧ entryHitWith resolve e (prevAddr T i) a = true := by
  rw [hit]
  cases T[i]? <;> simp

/-- A NA4 entry hits the addresses of its range, whatever the entry before it (42_entry_matcher.md R82). -/
theorem entryHitWith_resolve_na4 {e : PmpEntry} (h : (cfgdec e.cfg).a = .na4) (prev a : Addr) :
    entryHitWith resolve e prev a = (rngNa4 e.addr).contains a := by
  rw [entryHitWith, h, resolve]

/-- A NAPOT entry hits the addresses of its range, whatever the entry before it (42_entry_matcher.md R82). -/
theorem entryHitWith_resolve_napot {e : PmpEntry} (h : (cfgdec e.cfg).a = .napot) (prev a : Addr) :
    entryHitWith resolve e prev a = (rngNapot e.addr).contains a := by
  rw [entryHitWith, h, resolve]

/-- An address is at or above the predecessor value of an index exactly if it is at or above the address value of the entry
before, where there is one. -/
theorem prevAddr_le_iff {T : Table} {i : Nat} (h : i < T.length) (a : Addr) :
    (prevAddr T i).toNat ≤ a.toNat ↔ ∀ p, i ≠ 0 → T[i - 1]? = some p → p.addr.toNat ≤ a.toNat := by
  cases i with
  | zero => simp [prevAddr]
  | succ i =>
    have before : T[i]? = some T[i] := List.getElem?_eq_getElem (by omega)
    simp [prevAddr_succ before, before]

/-- Settles O26: an index hits if its entry does with its predecessor value, and each mode's hit is containment in its
range. -/
theorem hitIsContainmentByMode : Obligations.HitIsContainmentByMode := by
  intro T i a
  rw [hit_iff]
  refine exists_congr fun e => and_congr_right fun hentry => ?_
  obtain ⟨hlength, -⟩ := List.getElem?_eq_some_iff.mp hentry
  cases hmode : (cfgdec e.cfg).a with
  | off => simp [entryHitWith_resolve_of_isOff hmode]
  | tor => rw [entryHitWith_resolve_tor_iff hmode, prevAddr_le_iff hlength]
  | na4 => rw [entryHitWith_resolve_na4 hmode, rngNa4_contains_iff]
  | napot => rw [entryHitWith_resolve_napot hmode, Range.contains_iff]

/-- Settles O30: no index of such a table hits. -/
theorem noEnabledEntryMatchesNothing : Obligations.NoEnabledEntryMatchesNothing :=
  fun _ a hoff => matchEntry_of_forall_isOff hoff a

/-- Settles O31: the matched entry hits, so its range holds the address; a TOR range then has its bounds in order, and a
NAPOT range is none of the 65 empty ones. -/
theorem emptyRangesAreNeverMatched : Obligations.EmptyRangesAreNeverMatched := by
  intro T a i e hmatch hentry
  obtain ⟨hhit, -⟩ := matchEntry_eq_some_iff.mp hmatch
  obtain ⟨e', hentry', hhit⟩ := (hit_iff ..).mp hhit
  obtain rfl : e = e' := Option.some.inj (hentry.symm.trans hentry')
  refine ⟨fun htor => ?tor, fun hnapot k hk hvalue => ?napot⟩
  case tor =>
    obtain ⟨hlow, hhigh⟩ := (entryHitWith_resolve_tor_iff htor ..).mp hhit
    omega
  case napot =>
    rw [entryHitWith_resolve_napot hnapot] at hhit
    exact (napotBits_lt_of_contains hhit).ne ((napotBits_eq_64_iff e.addr).mpr ⟨k, hk, hvalue⟩)

/-! The matched index -/

theorem lt_length_of_matchEntry {T : Table} {a : Addr} {i : Nat} (h : matchEntry T a = some i) : i < T.length :=
  lt_length_of_hit (matchEntry_eq_some_iff.mp h).1

/-- The matched entry stands in the table. -/
theorem exists_entry_of_matchEntry {T : Table} {a : Addr} {i : Nat} (h : matchEntry T a = some i) :
    ∃ e, T[i]? = some e :=
  ⟨T[i]'(lt_length_of_matchEntry h), List.getElem?_eq_getElem _⟩

/-- An index below 64 fits `match_idx` (42_entry_matcher.md R88). -/
theorem matchIdxBits_toNat {i : Nat} (h : i < 64) : (matchIdxBits (some i)).toNat = i := by
  rw [matchIdxBits, BitVec.toNat_ofNat]
  omega

/-- Settles O33: the matched entry stands in the table, and a legal table has at most 64. -/
theorem matchIndexFitsThePort : Obligations.MatchIndexFitsThePort := by
  intro T a i hmatch
  have hlength := lt_length_of_matchEntry hmatch
  refine ⟨hlength, fun hlegal => matchIdxBits_toNat (hlength.trans_le ?_)⟩
  simpa [tableOk] using hlegal

/-! Entries added at the end -/

/-- What a scan has found it finds whatever follows. -/
theorem scanFrom_append_of_some {res : AMode → Addr → Addr → Option Range} {a prev : Addr} {i : Nat} {T : Table}
    {x : Nat × PmpEntry} (U : Table) (h : scanFrom res a prev i T = some x) : scanFrom res a prev i (T ++ U) = some x := by
  induction T generalizing prev i with
  | nil => cases h
  | cons e T ih =>
    rw [List.cons_append, scanFrom]
    rw [scanFrom] at h
    cases hhit : entryHitWith res e prev a with
    | true => rwa [hhit] at h
    | false =>
      rw [hhit] at h
      exact ih h

/-- A scan over Off entries finds nothing (42_entry_matcher.md R85). -/
theorem scanFrom_of_forall_isOff {P : Table} (hoff : ∀ e ∈ P, isOff e) (a prev : Addr) (i : Nat) :
    scanFrom resolve a prev i P = none := by
  induction P generalizing prev i with
  | nil => rfl
  | cons e P ih =>
    rw [List.forall_mem_cons] at hoff
    obtain ⟨he, hP⟩ := hoff
    exact (scanFrom_cons_eq_none_iff ..).mpr ⟨entryHitWith_resolve_of_isOff he prev a, ih hP _ _⟩

/-- Off entries at the end change nothing that a scan finds (10_state.md R28). -/
theorem scanFrom_append_of_forall_isOff {P : Table} (hoff : ∀ e ∈ P, isOff e) (T : Table) (a prev : Addr) (i : Nat) :
    scanFrom resolve a prev i (T ++ P) = scanFrom resolve a prev i T := by
  induction T generalizing prev i with
  | nil => exact scanFrom_of_forall_isOff hoff a prev i
  | cons e T ih => rw [List.cons_append, scanFrom, scanFrom, ih]

/-- Settles O34: the scan finds the same, and MATCH and CHECK read the table through it. -/
theorem offPaddingChangesNothing : Obligations.OffPaddingChangesNothing := by
  intro T P a m o hoff
  have same_scan : scan (T ++ P) a = scan T a := scanFrom_append_of_forall_isOff hoff T a _ _
  exact ⟨by rw [matchEntry, matchEntry, same_scan], by rw [check, check, same_scan]⟩

/-- Settles O35: a scan that finds an entry does not look at what follows. -/
theorem appendingKeepsAnExistingMatch : Obligations.AppendingKeepsAnExistingMatch := by
  intro T U a m o i hmatch
  obtain ⟨e, hentry⟩ := exists_entry_of_matchEntry hmatch
  have hscan := scan_eq_some_of_matchEntry hmatch hentry
  have same_scan : scan (T ++ U) a = scan T a := (scanFrom_append_of_some U hscan).trans hscan.symm
  exact ⟨by rw [matchEntry, same_scan, ← matchEntry, hmatch], by rw [check, check, same_scan]⟩

/-! Tables with the same ranges -/

/-- Two entries that give the matcher the same: field A's mode and the address value (42_entry_matcher.md R87). -/
def SameRange (e e' : PmpEntry) : Prop := e.addr = e'.addr ∧ (cfgdec e.cfg).a = (cfgdec e'.cfg).a

theorem sameRange_of_mask {e e' : PmpEntry} (h : e.addr = e'.addr ∧ e.cfg &&& 0x18#8 = e'.cfg &&& 0x18#8) :
    SameRange e e' := by
  obtain ⟨haddr, hmask⟩ := h
  exact ⟨haddr, (decodeAMode_of_mask hmask).trans (decodeAMode_of_mask rfl).symm⟩

theorem SameRange.entryHitWith_eq {e e' : PmpEntry} (h : SameRange e e') (res : AMode → Addr → Addr → Option Range)
    (prev a : Addr) : entryHitWith res e prev a = entryHitWith res e' prev a := by
  obtain ⟨haddr, hmode⟩ := h
  simp only [entryHitWith, haddr, hmode]

/-- Scans of tables with the same ranges find the same index. -/
theorem scanFrom_index_congr {T T' : Table} (h : List.Forall₂ SameRange T T') (a prev : Addr) (i : Nat) :
    (scanFrom resolve a prev i T).map Prod.fst = (scanFrom resolve a prev i T').map Prod.fst := by
  induction h generalizing prev i with
  | nil => rfl
  | @cons e e' T T' he _ ih =>
    have same_addr : e.addr = e'.addr := he.1
    rw [scanFrom, scanFrom, he.entryHitWith_eq, same_addr]
    cases entryHitWith resolve e' prev a with
    | true => rfl
    | false => exact ih _ _

theorem matchEntry_congr {T T' : Table} (h : List.Forall₂ SameRange T T') (a : Addr) : matchEntry T a = matchEntry T' a :=
  scanFrom_index_congr h a _ _

/-- Settles O32: field A's mode is read off the masked byte, and the scan reads the mode and the address value alone. -/
theorem matchReadsOnlyModesAndAddresses : Obligations.MatchReadsOnlyModesAndAddresses :=
  fun _ _ a hsame => matchEntry_congr (hsame.imp fun _ _ => sameRange_of_mask) a

/-! Readings of the doubtful corners -/

/-- Odd values and 0 are not U3's (93_implementation_defined.md U3). -/
theorem rngNapotUnder_of_certain {addr : Addr} (h : addr.getLsbD 0 = true ∨ addr = 0#64) (ρ : Reading) :
    rngNapotUnder ρ addr = rngNapot addr := by
  refine if_neg fun ⟨heven, hne⟩ => ?_
  obtain hodd | hzero := h
  · exact Bool.false_ne_true (heven.symm.trans hodd)
  · exact hne hzero

/-- Below the top four addresses the 64-bit sum is the integer sum (93_implementation_defined.md U4). -/
theorem rngNa4Under_of_certain {addr : Addr} (h : addr.toNat < 0xFFFFFFFFFFFFFFFC) (ρ : Reading) :
    rngNa4Under ρ addr = rngNa4 addr := by
  have base_rounded : (na4Base addr).toNat = addr.toNat / 4 * 4 := rngNa4_start_toNat addr
  have sums_agree : (na4Base addr + 4#64).setWidth 65 = (na4Base addr).setWidth 65 + 4#65 := by
    apply BitVec.eq_of_toNat_eq
    simp only [BitVec.toNat_setWidth, BitVec.toNat_add, BitVec.toNat_ofNat]
    omega
  rw [rngNa4Under, rngNa4, sums_agree, ite_self]

/-- Settles O23: the values are off the corners that the reading decides. -/
theorem everyReadingAgreesOffTheCorners : Obligations.EveryReadingAgreesOffTheCorners :=
  fun ρ _ => ⟨fun h => rngNapotUnder_of_certain h ρ, fun h => rngNa4Under_of_certain h ρ⟩

/-- An entry in no doubtful corner has one range under every reading. -/
theorem resolveUnder_of_not_doubtful {e : PmpEntry} (h : doubtfulEntry e = false) (ρ : Reading) (prev : Addr) :
    resolveUnder ρ (cfgdec e.cfg).a e.addr prev = resolve (cfgdec e.cfg).a e.addr prev := by
  rw [doubtfulEntry] at h
  cases hmode : (cfgdec e.cfg).a with
  | off | tor => rfl
  | na4 =>
    simp only [hmode, decide_eq_false_iff_not, not_le] at h
    rw [resolveUnder, resolve, rngNa4Under_of_certain h]
  | napot =>
    simp only [hmode, Bool.and_eq_false_iff, Bool.not_eq_false', bne_eq_false_iff_eq] at h
    rw [resolveUnder, resolve, rngNapotUnder_of_certain h]

/-- The spec's own reading is the block's resolver (90_conflicts.md C1, C2). -/
theorem resolveUnder_adoptedReading : resolveUnder adoptedReading = resolve := by
  have same_napot (addr : Addr) : rngNapotUnder adoptedReading addr = rngNapot addr := ite_self _
  funext mode addr prev
  cases mode with
  | off | tor | na4 => rfl
  | napot => rw [resolveUnder, resolve, same_napot]

/-- Scans by two resolvers that agree on a table's entries find the same. -/
theorem scanFrom_congr_resolver {res res' : AMode → Addr → Addr → Option Range} {T : Table}
    (h : ∀ e ∈ T, ∀ prev, res (cfgdec e.cfg).a e.addr prev = res' (cfgdec e.cfg).a e.addr prev) (a prev : Addr) (i : Nat) :
    scanFrom res a prev i T = scanFrom res' a prev i T := by
  induction T generalizing prev i with
  | nil => rfl
  | cons e T ih =>
    rw [List.forall_mem_cons] at h
    obtain ⟨he, hT⟩ := h
    rw [scanFrom, scanFrom, entryHitWith, entryHitWith, he, ih hT]

/-- Settles O24: the readings agree with the resolver on entries in no doubtful corner, and the spec's own on every entry,
so the scans find the same. -/
theorem checksAgreeUnderEveryReading : Obligations.ChecksAgreeUnderEveryReading := by
  refine ⟨fun ρ T a m o hcertain => ?certain, fun T a m o => ?adopted⟩
  case certain =>
    rw [checkUnder, check, scan,
      scanFrom_congr_resolver fun e he prev => resolveUnder_of_not_doubtful (hcertain e he) ρ prev]
  case adopted => rw [checkUnder, resolveUnder_adoptedReading, check, scan]

end Sys2Proof.Machine

end


/-! ### The top-level decision -/

section

namespace Sys2Proof.Machine

theorem allowedBit_eq_true_iff (r : AccessResult) : allowedBit r = true ↔ r = .allowed := by
  cases r <;> simp [allowedBit]

/-! The evaluator -/

/-- Supervisor and User are treated alike (43_permission_evaluator.md R94). -/
theorem perm_supervisor_eq_user (c : Config) (o : Operation) : perm c .supervisor o = perm c .user o := by
  rw [perm_of_not_bypass (by simp), perm_of_not_bypass (by simp)]

/-- What is allowed stays allowed where no lock and no lack of a permission bit is added. -/
theorem perm_allowed_mono {c c' : Config} {m : Mode} {o : Operation} (hlock : c.l = false → c'.l = false)
    (hbit : permBit c o = true → permBit c' o = true) (h : perm c m o = .allowed) : perm c' m o = .allowed := by
  rw [perm_eq_allowed_iff] at h ⊢
  exact h.imp (And.imp_right hlock) hbit

/-- The lock bit is no permission bit. -/
theorem permBit_with_lock (c : Config) (l : Bool) (o : Operation) : permBit { c with l := l } o = permBit c o := by
  cases o <;> rfl

/-- Settles O38: without the bypass the bit alone decides, and the bypass is for Machine on an unlocked entry. -/
theorem lockMattersToMachineAlone : Obligations.LockMattersToMachineAlone := by
  intro c o
  refine ⟨perm_supervisor_eq_user c o, fun m l hm => ?others, perm_of_bypass ⟨rfl, rfl⟩ o, ?locked⟩
  case others => rw [perm_of_not_bypass fun hbypass => hm hbypass.1, permBit_with_lock]
  case locked =>
    rw [perm_of_not_bypass (by simp), permBit_with_lock]
    cases permBit c o <;> simp

/-! The decision by what the matcher answers -/

/-- CHECK is the default policy for every request where nothing matches, and the matched entry's decision where one does
(44_top_level_check.md R98). -/
theorem check_cases (T : Table) (a : Addr) :
    (matchEntry T a = none ∧ ∀ m o, check T a m o = defaultPolicy m) ∨
    ∃ i e, matchEntry T a = some i ∧ T[i]? = some e ∧ ∀ m o, check T a m o = perm (cfgdec e.cfg) m o := by
  cases hmatch : matchEntry T a with
  | none => exact .inl ⟨rfl, check_of_no_match hmatch⟩
  | some i =>
    obtain ⟨e, hentry⟩ := exists_entry_of_matchEntry hmatch
    exact .inr ⟨i, e, rfl, hentry, check_of_match hmatch hentry⟩

/-- A relation that the decisions of two tables' matched entries stand in holds of their results, if the tables match the
same index and the relation is reflexive, as it has to be for the default policy. -/
theorem check_rel {R : AccessResult → AccessResult → Prop} (hrefl : ∀ r, R r r) {T T' : Table} {a : Addr} {m : Mode}
    {o : Operation} (hmatch : matchEntry T a = matchEntry T' a)
    (hperm : ∀ i e e', matchEntry T a = some i → T[i]? = some e → T'[i]? = some e' →
      R (perm (cfgdec e.cfg) m o) (perm (cfgdec e'.cfg) m o)) :
    R (check T a m o) (check T' a m o) := by
  obtain ⟨hnone, hcheck⟩ | ⟨i, e, hsome, hentry, hcheck⟩ := check_cases T a
  · rw [hcheck, check_of_no_match (hmatch ▸ hnone)]
    exact hrefl _
  · have hsome' : matchEntry T' a = some i := hmatch ▸ hsome
    obtain ⟨e', hentry'⟩ := exists_entry_of_matchEntry hsome'
    rw [hcheck, check_of_match hsome' hentry']
    exact hperm i e e' hsome hentry hentry'

/-- Entries that stand at one index of two related tables are related. -/
theorem rel_of_forall₂_of_getElem? {R : PmpEntry → PmpEntry → Prop} {T T' : Table} (h : List.Forall₂ R T T') {i : Nat}
    {e e' : PmpEntry} (hentry : T[i]? = some e) (hentry' : T'[i]? = some e') : R e e' := by
  obtain ⟨hi, rfl⟩ := List.getElem?_eq_some_iff.mp hentry
  obtain ⟨hi', rfl⟩ := List.getElem?_eq_some_iff.mp hentry'
  exact h.get hi hi'

/-- Settles O11: the ignored bits reach no Config, and entries with equal Configs and address values have the same ranges
and the same decisions. -/
theorem ignoredBitsChangeNothing : Obligations.IgnoredBitsChangeNothing := by
  refine ⟨fun _ _ => cfgdec_congr_of_mask, fun T T' a m o hsame => ?_⟩
  have same_match : matchEntry T a = matchEntry T' a :=
    matchEntry_congr (hsame.imp fun _ _ ⟨haddr, hmask⟩ => ⟨haddr, congrArg Config.a (cfgdec_congr_of_mask hmask)⟩) a
  refine ⟨same_match, check_rel (R := Eq) (fun _ => rfl) same_match fun i e e' _ hentry hentry' => ?_⟩
  obtain ⟨-, hmask⟩ := rel_of_forall₂_of_getElem? hsame hentry hentry'
  rw [cfgdec_congr_of_mask hmask]

/-- Settles O44: the ranges are the same, so the same index matches, and the entry there is the same. -/
theorem otherEntriesBitsChangeNothing : Obligations.OtherEntriesBitsChangeNothing := by
  intro T T' a m o hsame hmatched
  have same_match : matchEntry T a = matchEntry T' a := matchEntry_congr (hsame.imp fun _ _ => sameRange_of_mask) a
  refine check_rel (R := Eq) (fun _ => rfl) same_match fun i e e' hmatch hentry hentry' => ?_
  obtain rfl : e = e' := Option.some.inj (hentry.symm.trans ((hmatched i hmatch).trans hentry'))
  rfl

/-- Settles O40: with no match both sides say Machine, with one both are the evaluator's two rules on the matched entry. -/
theorem checkAsOneExpression : Obligations.CheckAsOneExpression := by
  intro T a m o
  obtain ⟨hnone, hcheck⟩ | ⟨i, e, hsome, hentry, hcheck⟩ := check_cases T a
  · simp [hcheck, hnone, ← allowedBit_eq_true_iff, allowedBit_defaultPolicy_iff]
  · rw [hcheck, perm_eq_allowed_iff]
    simp [hsome, hentry, or_comm]

/-! Monotonicity -/

theorem sameRange_refl (e : PmpEntry) : SameRange e e := ⟨rfl, rfl⟩

/-- Replacing an entry by one with the same range leaves a table with the same ranges. -/
theorem forall₂_sameRange_set {T : Table} {i : Nat} {e e' : PmpEntry} (hentry : T[i]? = some e) (h : SameRange e e') :
    List.Forall₂ SameRange T (T.set i e') := by
  induction T generalizing i with
  | nil => exact .nil
  | cons x T ih =>
    cases i with
    | zero =>
      obtain rfl : x = e := Option.some.inj hentry
      exact .cons h (List.forall₂_same.mpr fun y _ => sameRange_refl y)
    | succ i => exact .cons (sameRange_refl x) (ih hentry)

/-- What is allowed stays allowed where an entry is replaced by one of the same range that adds no lock and takes no
permission bit away. -/
theorem check_set_allowed {T : Table} {a : Addr} {m : Mode} {o : Operation} {i : Nat} {e e' : PmpEntry}
    (hentry : T[i]? = some e) (hrange : SameRange e e') (hlock : (cfgdec e.cfg).l = false → (cfgdec e'.cfg).l = false)
    (hbit : permBit (cfgdec e.cfg) o = true → permBit (cfgdec e'.cfg) o = true) (h : check T a m o = .allowed) :
    check (T.set i e') a m o = .allowed := by
  have same_match := matchEntry_congr (forall₂_sameRange_set hentry hrange) a
  refine check_rel (R := fun r r' => r = .allowed → r' = .allowed) (fun _ => id) same_match ?_ h
  intro j x x' _ hx hx'
  by_cases hij : i = j
  · subst hij
    obtain rfl : e = x := Option.some.inj (hentry.symm.trans hx)
    obtain ⟨hi, -⟩ := List.getElem?_eq_some_iff.mp hentry
    obtain rfl : e' = x' := Option.some.inj ((List.getElem?_set_self hi).symm.trans hx')
    exact perm_allowed_mono hlock hbit
  · rw [List.getElem?_set_ne hij, hx] at hx'
    obtain rfl : x = x' := Option.some.inj hx'
    exact id

/-- Clearing bit 7 of a byte unlocks its Config and does nothing else (30_encoding.md R43). -/
theorem cfgdec_clear_lock (b : Byte) : cfgdec (b &&& 0x7F#8) = { cfgdec b with l := false } := by
  have mask_field_ones : (0x7F#8 : Byte).extractLsb' 3 2 = BitVec.allOnes 2 := by decide
  have field_kept : (b &&& 0x7F#8).extractLsb' 3 2 = b.extractLsb' 3 2 := by
    rw [BitVec.extractLsb'_and, mask_field_ones, BitVec.and_allOnes]
  rw [cfgdec, field_kept]
  simp [cfgdec]

/-- Setting permission bits of a byte leaves field A and the lock bit and takes no permission bit away
(30_encoding.md R43). -/
theorem cfgdec_set_permissions (b : Byte) {p : Byte} (hp : p &&& 0xF8#8 = 0#8) :
    (cfgdec b).a = (cfgdec (b ||| p)).a ∧ (cfgdec (b ||| p)).l = (cfgdec b).l ∧
      ∀ o, permBit (cfgdec b) o = true → permBit (cfgdec (b ||| p)) o = true := by
  have mask_field_ones : (0xF8#8 : Byte).extractLsb' 3 2 = BitVec.allOnes 2 := by decide
  have no_field : p.extractLsb' 3 2 = 0#2 := by
    rw [← BitVec.and_allOnes (x := p.extractLsb' 3 2), ← mask_field_ones, ← BitVec.extractLsb'_and, hp]
    decide
  have no_lock : p.getLsbD 7 = false := by
    have at_lock : (p &&& 0xF8#8).getLsbD 7 = false := by rw [hp, BitVec.getLsbD_zero]
    simpa using at_lock
  refine ⟨?mode, ?lock, fun o hbit => ?bits⟩
  case mode => simp only [cfgdec, BitVec.extractLsb'_or, no_field, BitVec.or_zero]
  case lock => simp only [cfgdec, BitVec.getLsbD_or, no_lock, Bool.or_false]
  case bits =>
    rw [operationCodeIsThePermissionBit] at hbit ⊢
    rw [BitVec.getLsbD_or, hbit, Bool.true_or]

/-- Settles O43: the modes by the two rules of the evaluator; an entry with its lock cleared, or with more permission bits,
keeps its range. -/
theorem resultsAreMonotone : Obligations.ResultsAreMonotone := by
  refine ⟨fun T a o => ?modes, fun T a m o i e hentry hallowed => ⟨?unlock, fun p hp => ?permit⟩⟩
  case modes =>
    obtain ⟨-, hcheck⟩ | ⟨i, e, -, -, hcheck⟩ := check_cases T a
    · simp [hcheck, defaultPolicy]
    · simp only [hcheck, perm_eq_allowed_iff]
      refine ⟨perm_supervisor_eq_user _ o, fun hallowed => .inr (hallowed.resolve_left ?_)⟩
      simp
  case unlock =>
    refine check_set_allowed hentry ⟨rfl, ?_⟩ ?_ ?_ hallowed <;> simp [cfgdec_clear_lock, permBit_with_lock]
  case permit =>
    obtain ⟨same_mode, same_lock, bits_kept⟩ := cfgdec_set_permissions e.cfg hp
    exact check_set_allowed hentry ⟨rfl, same_mode⟩ same_lock.trans (bits_kept o) hallowed

/-! What the ports show -/

section Shown

variable {T : Table} {a : Addr} (m : Mode) (o : Operation)

theorem evaluate_matchIdx_of_no_match (h : matchEntry T a = none) : (evaluate T a m o).matchIdx = 0#6 := by
  rw [evaluate, h, matchIdxBits]

theorem evaluate_matched_of_match {i : Nat} (h : matchEntry T a = some i) : (evaluate T a m o).matched = true := by
  rw [evaluate, h, matchedBit, Option.isSome_some]

theorem evaluate_matchIdx_of_match {i : Nat} (h : matchEntry T a = some i) (hlength : T.length ≤ 64) :
    (evaluate T a m o).matchIdx.toNat = i := by
  rw [evaluate, h, matchIdxBits_toNat ((lt_length_of_matchEntry h).trans_le hlength)]

end Shown

/-- On a legal count the table of the ports is a legal table. -/
theorem table_length_le_64 {s : State} (h : s.nEntries.toNat ≤ 64) : s.table.length ≤ 64 := s.table_length_le.trans h

/-- Settles O28: MATCH is the first hit or none, and the ports show the match of the address presented. -/
theorem matchAnswersOnThePorts : Obligations.MatchAnswersOnThePorts := by
  intro s a hcount
  refine ⟨s.withFound (matchEntry s.table a), (execMatchScan_next_iff ..).mpr ⟨(countOk_iff _).mpr hcount, rfl⟩, rfl,
    matchEntry_eq_none_iff.mpr, fun i => matchEntry_eq_some_iff.mpr, ?_⟩
  rintro x rfl hx
  obtain ⟨-, m, o, -, -, rfl⟩ := (s.outputs_eq_ok_iff x).mp hx
  refine ⟨fun no_hit => ?none, fun i first_hit => ?some⟩
  case none =>
    have hmatch := matchEntry_eq_none_iff.mpr no_hit
    exact ⟨evaluate_matched_of_no_match hmatch m o, evaluate_matchIdx_of_no_match m o hmatch⟩
  case some =>
    have hmatch := matchEntry_eq_some_iff.mpr first_hit
    exact ⟨evaluate_matched_of_match m o hmatch, evaluate_matchIdx_of_match m o hmatch (table_length_le_64 hcount)⟩

/-- What a CHECK form delivers is the default policy or the matched entry's decision, the bit looked up being at the place
of the operation's code. -/
theorem checkAnswer_withDelivered {s : State} (hcount : s.nEntries.toNat ≤ 64) (m : Mode) (a : Addr) (o : Operation) :
    CheckAnswer s m a (opCode o).toNat (s.withDelivered (evaluate s.table a m o)) := by
  refine ⟨rfl, fun no_hit => ?none, fun i e hentry first_hit => ?some⟩
  case none =>
    have hmatch := matchEntry_eq_none_iff.mpr no_hit
    exact ⟨evaluate_matched_of_no_match hmatch m o, evaluate_matchIdx_of_no_match m o hmatch,
      evaluate_allowed_of_no_match_iff hmatch m o⟩
  case some =>
    have hmatch := matchEntry_eq_some_iff.mpr first_hit
    refine ⟨evaluate_matched_of_match m o hmatch, evaluate_matchIdx_of_match m o hmatch (table_length_le_64 hcount), ?_⟩
    rw [State.withDelivered_delivered, evaluate, allowedBit_eq_true_iff, check_of_match hmatch hentry, perm_eq_allowed_iff,
      operationCodeIsThePermissionBit]
    rfl

/-- Settles O39: each form is the evaluation with its own operation. -/
theorem checksAnswerOnThePorts : Obligations.ChecksAnswerOnThePorts := by
  intro s m a hcount
  have answers (o : Operation) : ∃ t, exec (checkInstr m a o) s = .next t ∧ CheckAnswer s m a (opCode o).toNat t := by
    refine ⟨_, ?_, checkAnswer_withDelivered hcount m a o⟩
    rw [exec_checkInstr]
    exact (evalCheck_next_iff ..).mpr ⟨(countOk_iff _).mpr hcount, rfl⟩
  exact ⟨answers .read, answers .write, answers .execute⟩

end Sys2Proof.Machine

end


/-! ### The block as gates computes the outputs -/

section

namespace Sys2Proof.Machine

/-! The hit comparators -/

/-- Bits 4 and 3 of a byte select its mode, as wiring (30_encoding.md R46). -/
theorem cfgdec_a_eq_wiring (b : Byte) :
    (cfgdec b).a = if b.getLsbD 4 then (if b.getLsbD 3 then .napot else .na4) else (if b.getLsbD 3 then .tor else .off) := by
  have wiring (v : BitVec 2) : decodeAMode v =
      if v.getLsbD 1 then (if v.getLsbD 0 then .napot else .na4) else (if v.getLsbD 0 then .tor else .off) := by
    revert v
    decide
  have high_bit : (b.extractLsb' 3 2).getLsbD 1 = b.getLsbD 4 := by simp
  have low_bit : (b.extractLsb' 3 2).getLsbD 0 = b.getLsbD 3 := by simp
  rw [cfgdec, wiring, high_bit, low_bit]

/-- Two addresses with the bits below bit `t` cleared are equal exactly if their quotients by `2^t` are. -/
theorem and_not_lowmask_eq_iff (a b : Addr) (t : Nat) :
    a &&& ~~~lowmask t = b &&& ~~~lowmask t ↔ a.toNat / 2 ^ t = b.toNat / 2 ^ t := by
  rw [← BitVec.toNat_inj, toNat_and_not_lowmask, toNat_and_not_lowmask, Nat.mul_left_inj (Nat.two_pow_pos t).ne']

/-- The mask is `MAX` exactly if it has all 64 bits. -/
theorem lowmask_eq_MAX_iff {t : Nat} (h : t ≤ 64) : lowmask t = MAX ↔ t = 64 := by
  have MAX_value : MAX.toNat = 2 ^ 64 - 1 := rfl
  have pow_pos : 0 < 2 ^ t := Nat.two_pow_pos t
  rw [← BitVec.toNat_inj, toNat_lowmask h, MAX_value]
  constructor
  · intro hvalue
    exact Nat.pow_right_injective le_rfl (by simp only; omega)
  · rintro rfl
    rfl

/-- The value wired to a slot in the table is its predecessor's in the table (41_range_resolver.md R69). -/
theorem gatePrev_eq {s : State} {i : Fin 64} (h : i.val < s.nEntries.toNat) : gatePrev s i = prevAddr s.table i.val := by
  obtain ⟨i, hi⟩ := i
  cases i with
  | zero => rfl
  | succ i => exact (prevAddr_succ (s.table_getElem? ⟨i, by omega⟩ (Nat.lt_of_succ_lt h))).symm

section AtASlot

variable (s : State) (i : Fin 64)

theorem gateTor_eq : gateTor s i = (rngTor (s.slots.get i).addr (gatePrev s i)).contains s.reqAddr := by
  rw [Bool.eq_iff_iff, rngTor_contains_iff, gateTor]
  simp [BitVec.ule, BitVec.ult]

theorem gateNa4_eq : gateNa4 s i = (rngNa4 (s.slots.get i).addr).contains s.reqAddr := by
  rw [Bool.eq_iff_iff, rngNa4_contains_iff, gateNa4, beq_iff_eq, extractLsb'_two_eq_iff]

/-- The NAPOT comparator compares the bits above the mask, and does not match where there are none
(41_range_resolver.md R74, R77). -/
theorem gateNapot_eq : gateNapot s i = (rngNapot (s.slots.get i).addr).contains s.reqAddr := by
  have no_loop (w : Addr) : w &&& ~~~(w + 1#64) = lowmask (tz1 w) := (lowRunMaskWithoutALoop w).symm
  simp only [gateNapot, no_loop]
  generalize (s.slots.get i).addr = addr
  rw [← napotBits, Bool.eq_iff_iff, Bool.and_eq_true, bne_iff_ne, beq_iff_eq, ne_eq, lowmask_eq_MAX_iff (napotBits_le addr),
    and_not_lowmask_eq_iff]
  constructor
  · rintro ⟨hne, hblock⟩
    exact (rngNapot_contains_iff (lt_of_le_of_ne (napotBits_le addr) hne) _).mpr hblock
  · intro hhit
    have proper := napotBits_lt_of_contains hhit
    exact ⟨proper.ne, (rngNapot_contains_iff proper _).mp hhit⟩

/-- A slot's hit is the hit of its index in the table: the comparator its bits 4:3 select is its mode's containment
(42_entry_matcher.md R82). -/
theorem gateHit_eq_hit : gateHit s i = hit s.table i.val s.reqAddr := by
  by_cases hcount : i.val < s.nEntries.toNat
  · have at_slot : hit s.table i.val s.reqAddr = entryHitWith resolve (s.slots.get i) (gatePrev s i) s.reqAddr := by
      rw [hit, s.table_getElem? i hcount, gatePrev_eq hcount]
    rw [at_slot, gateHit, entryHitWith, cfgdec_a_eq_wiring, gateTor_eq, gateNa4_eq, gateNapot_eq]
    cases (s.slots.get i).cfg.getLsbD 4 <;> cases (s.slots.get i).cfg.getLsbD 3 <;> simp [hcount, resolve]
  · rw [hit_of_length_le (s.table_length_le.trans (not_lt.mp hcount)), gateHit]
    simp [hcount]

end AtASlot

/-! The priority encoder -/

/-- MATCH is the same search over any initial segment of the indices that covers the table. -/
theorem matchEntry_eq_find?_of_length_le {T : Table} {n : Nat} (h : T.length ≤ n) (a : Addr) :
    matchEntry T a = (List.range n).find? fun i => hit T i a := by
  ext i
  rw [matchEntry_eq_some_iff, List.find?_range_eq_some, List.mem_range, firstHit]
  constructor
  · rintro ⟨hhit, hbefore⟩
    exact ⟨hhit, (lt_length_of_hit hhit).trans_le h, by simpa using hbefore⟩
  · rintro ⟨hhit, -, hbefore⟩
    exact ⟨hhit, by simpa using hbefore⟩

/-- The slot that the priority encoder passes on is the index that matches (42_entry_matcher.md R82). -/
theorem gateEncoder_map_val (s : State) (h : s.nEntries.toNat ≤ 64) :
    (gateEncoder s).map Fin.val = matchEntry s.table s.reqAddr := by
  have same_test : gateHit s = (fun i => hit s.table i s.reqAddr) ∘ Fin.val := funext fun i => gateHit_eq_hit s i
  rw [matchEntry_eq_find?_of_length_le (table_length_le_64 h), gateEncoder, same_test, ← List.find?_map,
    List.map_coe_finRange_eq_range]

theorem gateMatched_eq (s : State) (h : s.nEntries.toNat ≤ 64) :
    gateMatched s = matchedBit (matchEntry s.table s.reqAddr) := by
  rw [gateMatched, matchedBit, ← gateEncoder_map_val s h, Option.isSome_map]

theorem gateMatchIdx_eq (s : State) (h : s.nEntries.toNat ≤ 64) :
    gateMatchIdx s = matchIdxBits (matchEntry s.table s.reqAddr) := by
  rw [gateMatchIdx, ← gateEncoder_map_val s h]
  cases gateEncoder s <;> rfl

/-! The decision -/

/-- The one expression over the selected byte is the decision on the matched entry, or the default policy
(44_top_level_check.md R100). -/
theorem gateAllowed_eq {s : State} {m : Mode} {o : Operation} (h : s.nEntries.toNat ≤ 64)
    (hm : decodeMode s.reqMode = some m) (ho : decodeOp s.reqOp = some o) :
    gateAllowed s = allowedBit (check s.table s.reqAddr m o) := by
  have machine_code : s.reqMode = 3#2 ↔ m = .machine := by
    rw [← decodeMode_eq_machine_iff, hm, Option.some_inj]
  have op_code : s.reqOp = opCode o := (decodeOp_eq_some_iff ..).mp ho
  have encoder := gateEncoder_map_val s h
  rw [Bool.eq_iff_iff, allowedBit_eq_true_iff, gateAllowed, gateMatched, gateConfig]
  cases hencoder : gateEncoder s with
  | none =>
    rw [hencoder] at encoder
    rw [check_of_no_match encoder.symm, ← allowedBit_eq_true_iff, allowedBit_defaultPolicy_iff]
    simp [machine_code]
  | some i =>
    rw [hencoder] at encoder
    have hmatch : matchEntry s.table s.reqAddr = some i.val := encoder.symm
    have in_table : i.val < s.nEntries.toNat := (lt_length_of_matchEntry hmatch).trans_le s.table_length_le
    have lock_bit : (cfgdec (s.slots.get i).cfg).l = (s.slots.get i).cfg.getLsbD 7 := rfl
    rw [check_of_match hmatch (s.table_getElem? i in_table), perm_eq_allowed_iff, operationCodeIsThePermissionBit, op_code,
      lock_bit]
    simp [machine_code, or_comm]

/-- Settles O53: the encoder finds the matching index, the selected byte is the matched entry's, and the expression is the
decision on it; a step of CHECK delivers the outputs. -/
theorem gatesComputeTheStep : Obligations.GatesComputeTheStep := by
  intro s hlegal
  obtain ⟨m, o, hm, ho⟩ := hlegal.codes
  obtain ⟨hcountOk, -, -⟩ := hlegal
  have hcount : s.nEntries.toNat ≤ 64 := (countOk_iff _).mp hcountOk
  have shown : s.outputs = .ok (evaluate s.table s.reqAddr m o) := (s.outputs_eq_ok_iff _).mpr ⟨hcountOk, m, o, hm, ho, rfl⟩
  exact ⟨_, shown, (gateAllowed_eq hcount hm ho).symm, (gateMatched_eq s hcount).symm, (gateMatchIdx_eq s hcount).symm,
    fun hsel => ⟨_, step_of_check hsel shown, State.withDelivered_delivered ..⟩⟩

end Sys2Proof.Machine

end


/-! ### The loader and the run of the tool -/

section

namespace Sys2Proof.Machine

/-! The formed table -/

/-- The zip ends with the shorter section (45_loader_and_cli.md R110, R111). -/
theorem formTable_length (vs : List Addr) : (formTable vs).length = min (vs.length - 64) 64 := by
  simp only [formTable, List.length_zipWith, List.length_take, List.length_drop]
  omega

/-- Settles O55: an index below the zip's length is in both sections. -/
theorem formedTableZipsTheTwoSections : Obligations.FormedTableZipsTheTwoSections := by
  intro vs
  refine ⟨formTable_length vs, fun i hi => ?_⟩
  rw [formTable_length] at hi
  have in_first : vs[i]? = some vs[i] := List.getElem?_eq_getElem (by omega)
  have in_second : vs[64 + i]? = some vs[64 + i] := List.getElem?_eq_getElem (by omega)
  have below_64 : i < 64 := by omega
  refine ⟨vs[i], vs[64 + i], in_first, in_second, ?_⟩
  simp [formTable, List.getElem?_zipWith, below_64, in_first, in_second,
    BitVec.setWidth_eq_extractLsb']

/-! Reading the file -/

/-- The lines of a file fail to parse exactly if one of them is malformed. -/
theorem parseLines_eq_none_iff (p : HostParams) (ts : List (List Char)) :
    parseLines p ts = none ↔ ∃ t ∈ ts, hexLine p t = none := by
  induction ts with
  | nil => simp [parseLines]
  | cons t ts ih =>
    rw [parseLines, List.exists_mem_cons_iff, ← ih]
    cases hexLine p t <;> cases parseLines p ts <;> simp

/-- The outcome of loading a file that can be opened. -/
theorem loadTable_some (p : HostParams) (ls : List (List Char)) :
    (parseLines p (ls.take 128) = none ∧ loadTable p (some ls) = .error .parseError) ∨
    ∃ vs, parseLines p (ls.take 128) = some vs ∧ loadTable p (some ls) = .ok (formTable vs) := by
  rw [loadTable]
  cases parseLines p (ls.take 128) <;> simp

/-- Settles O56: the loader parses the first 128 lines alone, and a malformed one fails the parse. -/
theorem loaderReadsTheFirst128Lines : Obligations.LoaderReadsTheFirst128Lines := by
  intro p ls
  refine ⟨by simp only [loadTable, List.take_take, Nat.min_self], ?_⟩
  rw [← parseLines_eq_none_iff]
  obtain ⟨hparse, hload⟩ | ⟨vs, hparse, hload⟩ := loadTable_some p ls <;> simp [hparse, hload]

/-- A loaded table has at most 64 entries (45_loader_and_cli.md R111). -/
theorem length_of_loadTable {p : HostParams} {file : Option (List (List Char))} {T : Table}
    (h : loadTable p file = .ok T) : T.length ≤ 64 := by
  cases file with
  | none => cases h
  | some ls =>
    obtain ⟨-, hload⟩ | ⟨vs, -, hload⟩ := loadTable_some p ls
    · cases hload.symm.trans h
    · obtain rfl : formTable vs = T := Except.ok.inj (hload.symm.trans h)
      rw [formTable_length]
      omega

/-! The run -/

/-- An error applies exactly if one of the four checks finds it. -/
theorem applicable_iff (p : HostParams) (inp : HostInput) (k : ErrorKind) :
    applicable p inp k = true ↔ ∃ c, checkError p inp c = some k := by
  simp only [applicable, List.any_eq_true, beq_iff_eq]
  constructor
  · rintro ⟨c, -, hc⟩
    exact ⟨c, hc⟩
  · rintro ⟨c, hc⟩
    exact ⟨c, by cases c <;> simp [HostCheck.all], hc⟩

/-- Where a check finds an error, the first one found in any order of the checks applies (60_exceptions.md R130). -/
theorem applicable_first_error {p : HostParams} {inp : HostInput} {c : HostCheck} {k : ErrorKind}
    (h : checkError p inp c = some k) :
    applicable p inp ((p.order.findSome? (checkError p inp)).getD .ioError) = true := by
  have in_order : c ∈ p.order := p.orderPerm.mem_iff.mpr (by cases c <;> simp [HostCheck.all])
  cases hfirst : p.order.findSome? (checkError p inp) with
  | none =>
    have found_none := List.findSome?_eq_none_iff.mp hfirst c in_order
    cases found_none.symm.trans h
  | some k' =>
    obtain ⟨c', -, hc'⟩ := List.exists_of_findSome?_eq_some hfirst
    exact (applicable_iff ..).mpr ⟨c', hc'⟩

/-- With valid inputs the run prints the decision (45_loader_and_cli.md R119). -/
theorem runTool_of_ok {p : HostParams} {inp : HostInput} {a : Addr} {m : Mode} {o : Operation} {T : Table}
    (ha : parseAddress p inp.address = .ok a) (hm : parseMode inp.mode = .ok m)
    (ho : parseOperation inp.operation = .ok o) (hT : loadTable p inp.file = .ok T) :
    runTool p inp = .printed (check T a m o) := by
  rw [runTool, ha, hm, ho, hT]

/-- A run either prints, and then no check finds an error, or it fails with an error that applies. -/
theorem runTool_cases (p : HostParams) (inp : HostInput) :
    ((∃ r, runTool p inp = .printed r) ∧ ∀ c, checkError p inp c = none) ∨
    ∃ k, runTool p inp = .failed k ∧ applicable p inp k = true := by
  cases ha : parseAddress p inp.address with
  | error k => exact .inr ⟨_, by rw [runTool, ha], applicable_first_error (c := .address) (by rw [checkError, ha])⟩
  | ok a =>
    cases hm : parseMode inp.mode with
    | error k => exact .inr ⟨_, by rw [runTool, ha, hm], applicable_first_error (c := .mode) (by rw [checkError, hm])⟩
    | ok m =>
      cases ho : parseOperation inp.operation with
      | error k =>
        exact .inr ⟨_, by rw [runTool, ha, hm, ho], applicable_first_error (c := .operation) (by rw [checkError, ho])⟩
      | ok o =>
        cases hT : loadTable p inp.file with
        | error k =>
          exact .inr ⟨_, by rw [runTool, ha, hm, ho, hT], applicable_first_error (c := .file) (by rw [checkError, hT])⟩
        | ok T =>
          refine .inl ⟨⟨_, runTool_of_ok ha hm ho hT⟩, fun c => ?_⟩
          cases c <;> simp only [checkError, ha, hm, ho, hT]

/-- Settles O59: a run that prints has no error that applies, and one that fails reports one that does. -/
theorem toolReportsSomeApplicableError : Obligations.ToolReportsSomeApplicableError := by
  intro p inp
  obtain ⟨⟨r, hprinted⟩, no_error⟩ | ⟨k, hfailed, happlies⟩ := runTool_cases p inp
  · have none_applies (k : ErrorKind) : ¬applicable p inp k = true := by simp [applicable_iff, no_error]
    simp [hprinted, none_applies]
  · refine ⟨⟨fun _ => ⟨k, hfailed⟩, fun _ => ⟨k, happlies⟩⟩, fun k' hfailed' => ?_⟩
    obtain rfl : k = k' := HostOutcome.failed.inj (hfailed.symm.trans hfailed')
    rw [hfailed]
    exact ⟨happlies, rfl, rfl⟩

/-- The line printed says the output `allowed` (45_loader_and_cli.md R119). -/
theorem outputLine_printed (r : AccessResult) :
    outputLine (.printed r) = some (if allowedBit r then "Access allowed" else "Access denied") := by
  cases r <;> rfl

/-- Settles O60: the run prints CHECK's result, which is the output `allowed` of the driven ports, and the step of CHECK
delivers the outputs. -/
theorem toolPrintsTheBlocksAnswer : Obligations.ToolPrintsTheBlocksAnswer := by
  intro p inp a m o T s ha hm ho hT
  have shown := drive_outputs s a m o (length_of_loadTable hT)
  rw [runTool_of_ok ha hm ho hT]
  exact ⟨rfl, _, _, shown, step_of_check (State.drive_sel ..) shown, State.withDelivered_delivered .., outputLine_printed _⟩

end Sys2Proof.Machine

end


/-! ### The hexadecimal texts that the spec settles -/

section

namespace Sys2Proof.Machine

/-! Characters -/

/-- A hexadecimal digit's character and value (45_loader_and_cli.md R107). -/
theorem hexDigit_eq_some {c : Char} {d : Nat} (h : hexDigit c = some d) :
    d < 16 ∧ (48 ≤ c.toNat ∧ c.toNat ≤ 57 ∨ 65 ≤ c.toNat ∧ c.toNat ≤ 70 ∨ 97 ≤ c.toNat ∧ c.toNat ≤ 102) := by
  simp only [hexDigit] at h
  split at h
  · obtain rfl := Option.some.inj h; omega
  · split at h
    · obtain rfl := Option.some.inj h; omega
    · split at h
      · obtain rfl := Option.some.inj h; omega
      · cases h

/-- White space is no hexadecimal digit. -/
theorem hexDigit_of_spaceChar {c : Char} (h : spaceChar c = true) : hexDigit c = none := by
  cases hdigit : hexDigit c with
  | none => rfl
  | some d =>
    obtain ⟨-, hcode⟩ := hexDigit_eq_some hdigit
    simp only [spaceChar, Bool.or_eq_true, Bool.and_eq_true, decide_eq_true_iff, beq_iff_eq] at h
    omega

/-- A hexadecimal digit differs from every character that is none. -/
theorem ne_of_hexDigit {c d : Char} (hc : (hexDigit c).isSome) (hd : hexDigit d = none) : c ≠ d := by
  rintro rfl
  simp [hd] at hc

theorem spaceChar_of_hexDigit {c : Char} (h : (hexDigit c).isSome) : spaceChar c = false := by
  by_contra hspace
  exact ne_of_hexDigit h (hexDigit_of_spaceChar (by simpa using hspace)) rfl

/-- A character that no numeral has, settled or open: no digit, sign or separator, and not the `x` of a `0x`
(45_loader_and_cli.md R107). -/
def NoNumeralChar (c : Char) : Prop :=
  hexDigit c = none ∧ c ≠ '+' ∧ c ≠ '-' ∧ c ≠ '_' ∧ c ≠ 'x' ∧ c ≠ 'X'

theorem badChar_iff (c : Char) : badChar c = true ↔ NoNumeralChar c ∧ spaceChar c = false := by
  simp only [badChar, NoNumeralChar, Bool.and_eq_true, Bool.not_eq_true', bne_iff_ne, Option.isNone_iff_eq_none]
  tauto

theorem noNumeralChar_of_spaceChar {c : Char} (h : spaceChar c = true) : NoNumeralChar c := by
  have not_space {d : Char} (hd : spaceChar d = false) : c ≠ d := by
    rintro rfl
    exact Bool.false_ne_true (hd.symm.trans h)
  exact ⟨hexDigit_of_spaceChar h, not_space rfl, not_space rfl, not_space rfl, not_space rfl, not_space rfl⟩

/-! The value of a run of digits -/

/-- A run of digits has the value that its digits' values give, most significant first. -/
theorem hexValueFrom_of_digits {h : List Char} {ds : List Nat} (hdigits : h.map hexDigit = ds.map some) (acc : Nat) :
    hexValueFrom acc h = some (ds.foldl (fun n d => 16 * n + d) acc) := by
  induction h generalizing ds acc with
  | nil => cases ds <;> simp_all [hexValueFrom]
  | cons c cs ih =>
    cases ds with
    | nil => cases hdigits
    | cons d ds =>
      obtain ⟨hc, hcs⟩ := List.cons.inj hdigits
      rw [hexValueFrom, hc]
      exact ih hcs _

/-- `n` digits more have a value below `16^n` times what went before. -/
theorem foldl_digits_lt {ds : List Nat} (hdigits : ∀ d ∈ ds, d < 16) (acc : Nat) :
    ds.foldl (fun n d => 16 * n + d) acc < (acc + 1) * 16 ^ ds.length := by
  induction ds generalizing acc with
  | nil => simp
  | cons d ds ih =>
    rw [List.forall_mem_cons] at hdigits
    obtain ⟨hd, hds⟩ := hdigits
    calc (d :: ds).foldl (fun n d => 16 * n + d) acc < (16 * acc + d + 1) * 16 ^ ds.length := ih hds _
      _ ≤ (16 * (acc + 1)) * 16 ^ ds.length := Nat.mul_le_mul_right _ (by omega)
      _ = (acc + 1) * 16 ^ (d :: ds).length := by rw [List.length_cons]; ring

/-- Up to 16 digits have a value of 64 bits. -/
theorem hexValue_of_digits {h : List Char} {ds : List Nat} (hlength : h.length ≤ 16)
    (hdigits : h.map hexDigit = ds.map some) :
    ∃ v : Addr, hexValue h = some v ∧ v.toNat = ds.foldl (fun n d => 16 * n + d) 0 := by
  have same_length : h.length = ds.length := by simpa using congrArg List.length hdigits
  have small (d : Nat) (hd : d ∈ ds) : d < 16 := by
    have in_map : some d ∈ h.map hexDigit := hdigits ▸ List.mem_map_of_mem hd
    obtain ⟨c, -, hc⟩ := List.mem_map.mp in_map
    exact (hexDigit_eq_some hc).1
  have fits : ds.foldl (fun n d => 16 * n + d) 0 < 2 ^ 64 :=
    calc ds.foldl (fun n d => 16 * n + d) 0 < (0 + 1) * 16 ^ ds.length := foldl_digits_lt small 0
      _ ≤ (0 + 1) * 16 ^ 16 := Nat.mul_le_mul_left _ (Nat.pow_le_pow_right (by decide) (same_length ▸ hlength))
      _ = 2 ^ 64 := by norm_num
  refine ⟨BitVec.ofNat 64 (ds.foldl (fun n d => 16 * n + d) 0), ?_, ?_⟩
  · rw [hexValue, if_neg (not_lt.mpr hlength), hexValueFrom_of_digits hdigits, Option.map_some]
  · rw [BitVec.toNat_ofNat, Nat.mod_eq_of_lt fits]

/-- A text with a character that is no digit has no value. -/
theorem hexValueFrom_eq_none_of_mem {c : Char} {h : List Char} (hmem : c ∈ h) (hc : hexDigit c = none) (acc : Nat) :
    hexValueFrom acc h = none := by
  induction h generalizing acc with
  | nil => cases hmem
  | cons d h ih =>
    rw [hexValueFrom]
    cases hd : hexDigit d with
    | none => rfl
    | some v =>
      obtain rfl | hmem := List.mem_cons.mp hmem
      · cases hd.symm.trans hc
      · exact ih hmem _

theorem hexValue_eq_none_of_mem {c : Char} {h : List Char} (hmem : c ∈ h) (hc : hexDigit c = none) : hexValue h = none := by
  rw [hexValue, hexValueFrom_eq_none_of_mem hmem hc, Option.map_none, ite_self]

/-! Prefixes, signs and white space -/

theorem afterPrefix_eq_some_iff (t ds : List Char) : afterPrefix t = some ds ↔ t = '0' :: 'x' :: ds := by
  constructor
  · fun_cases afterPrefix t with
    | case1 ds' =>
      rintro ⟨⟩
      rfl
    | case2 => nofun
  · rintro rfl
    rfl

theorem afterAnyPrefix_eq_some_iff (t ds : List Char) :
    afterAnyPrefix t = some ds ↔ t = '0' :: 'x' :: ds ∨ t = '0' :: 'X' :: ds := by
  constructor
  · fun_cases afterAnyPrefix t with
    | case1 ds' =>
      rintro ⟨⟩
      exact .inl rfl
    | case2 ds' =>
      rintro ⟨⟩
      exact .inr rfl
    | case3 => nofun
  · rintro (rfl | rfl) <;> rfl

/-- A settled leading `0x` is one of the open forms of it. -/
theorem afterAnyPrefix_of_afterPrefix {t ds : List Char} (h : afterPrefix t = some ds) : afterAnyPrefix t = some ds :=
  (afterAnyPrefix_eq_some_iff ..).mpr (.inl ((afterPrefix_eq_some_iff ..).mp h))

/-- A text is its sign, if it has one, and what stands after it. -/
theorem eq_sign_append_afterSign (t : List Char) :
    t = afterSign t ∨ t = '+' :: afterSign t ∨ t = '-' :: afterSign t := by
  fun_cases afterSign t with
  | case1 => exact .inr (.inl rfl)
  | case2 => exact .inr (.inr rfl)
  | case3 => exact .inl rfl

theorem mem_afterSign {c : Char} {t : List Char} (hmem : c ∈ t) (hplus : c ≠ '+') (hminus : c ≠ '-') : c ∈ afterSign t := by
  obtain h | h | h := eq_sign_append_afterSign t <;> rw [h] at hmem
  · exact hmem
  · exact (List.mem_cons.mp hmem).resolve_left hplus
  · exact (List.mem_cons.mp hmem).resolve_left hminus

theorem afterSign_of_digit {c : Char} (hc : (hexDigit c).isSome) (t : List Char) : afterSign (c :: t) = c :: t := by
  obtain h | h | h := eq_sign_append_afterSign (c :: t)
  · exact h.symm
  · exact absurd (List.cons.inj h).1 (ne_of_hexDigit hc rfl)
  · exact absurd (List.cons.inj h).1 (ne_of_hexDigit hc rfl)

/-- Taking the white space off is dropping it from the left and then from the right. -/
theorem trim_eq_rdropWhile (t : List Char) : trim t = (t.dropWhile spaceChar).rdropWhile spaceChar := rfl

theorem mem_dropWhile_of_mem {p : Char → Bool} {c : Char} {t : List Char} (hmem : c ∈ t) (hc : p c = false) :
    c ∈ t.dropWhile p := by
  rw [← List.takeWhile_append_dropWhile (p := p) (l := t), List.mem_append] at hmem
  exact hmem.resolve_left fun htake => Bool.false_ne_true (hc.symm.trans (List.mem_takeWhile_imp htake))

/-- Taking the white space off loses no other character. -/
theorem mem_trim {c : Char} {t : List Char} (hmem : c ∈ t) (hc : spaceChar c = false) : c ∈ trim t :=
  List.mem_reverse.mpr (mem_dropWhile_of_mem (List.mem_reverse.mpr (mem_dropWhile_of_mem hmem hc)) hc)

theorem trim_isInfix (t : List Char) : trim t <:+: t :=
  (List.rdropWhile_prefix spaceChar _).isInfix.trans (List.dropWhile_suffix spaceChar).isInfix

/-- Taking the white space off keeps what stands between two characters that are none. -/
theorem trim_append_cons {x c : Char} (hx : spaceChar x = false) (hc : spaceChar c = false) (l w : List Char) :
    ∃ w', trim (x :: l ++ c :: w) = x :: l ++ c :: w' := by
  refine ⟨w.rdropWhile spaceChar, ?_⟩
  have left_kept : (x :: l ++ c :: w).dropWhile spaceChar = x :: l ++ c :: w :=
    List.dropWhile_cons_of_neg (by simp [hx])
  rw [trim_eq_rdropWhile, left_kept, List.rdropWhile, List.rdropWhile, List.reverse_append, List.reverse_cons,
    List.append_assoc, List.dropWhile_append]
  cases hw : w.reverse.dropWhile spaceChar <;> simp [hc]

/-! Texts that no reading admits -/

theorem digitsAndSeparators_eq_false_of_mem {c : Char} {t : List Char} (hmem : c ∈ t) (hdigit : hexDigit c = none)
    (hsep : c ≠ '_') : digitsAndSeparators t = false := by
  rw [digitsAndSeparators, List.all_eq_false]
  exact ⟨c, hmem, by simp [hdigit, hsep]⟩

/-- A line with a character that is no digit, and that no leading `0x` accounts for, is not settled. -/
theorem settledLine_eq_none_of_mem {c : Char} {t : List Char} (hdigit : hexDigit c = none) (hmem : c ∈ t)
    (hafter : ∀ u, afterAnyPrefix t = some u → c ∈ u) : settledLine t = none := by
  rw [settledLine, if_neg (List.ne_nil_of_mem hmem)]
  cases hprefix : afterPrefix t with
  | none => exact hexValue_eq_none_of_mem hmem hdigit
  | some u => exact hexValue_eq_none_of_mem (hafter u (afterAnyPrefix_of_afterPrefix hprefix)) hdigit

/-- A character that is no digit, separator or sign and that no leading `0x` or `0X` accounts for keeps a text out
of the open shapes. -/
theorem openText_eq_false_of_mem {c : Char} {t : List Char} (hdigit : hexDigit c = none) (hsep : c ≠ '_') (hplus : c ≠ '+')
    (hminus : c ≠ '-') (hmem : c ∈ trim t) (hafter : ∀ u, afterAnyPrefix (trim t) = some u → c ∈ u)
    (hafterSign : ∀ u, afterAnyPrefix (afterSign (trim t)) = some u → c ∈ u) : openText t = false := by
  have no_sign_first : (afterAnyPrefix (afterSign (trim t))).any digitsAndSeparators = false := by
    cases hprefix : afterAnyPrefix (afterSign (trim t)) with
    | none => rfl
    | some u => exact digitsAndSeparators_eq_false_of_mem (hafterSign u hprefix) hdigit hsep
  have no_prefix_first : ((afterAnyPrefix (trim t)).any fun u => digitsAndSeparators (afterSign u)) = false := by
    cases hprefix : afterAnyPrefix (trim t) with
    | none => rfl
    | some u => exact digitsAndSeparators_eq_false_of_mem (mem_afterSign (hafter u hprefix) hplus hminus) hdigit hsep
  rw [openText, openPrefixed, no_sign_first, no_prefix_first,
    digitsAndSeparators_eq_false_of_mem (mem_afterSign hmem hplus hminus) hdigit hsep]
  rfl

/-- No leading `0x` or `0X` accounts for a character that no numeral has. -/
theorem NoNumeralChar.mem_of_afterAnyPrefix {c : Char} (h : NoNumeralChar c) {t u : List Char} (hmem : c ∈ t)
    (hprefix : afterAnyPrefix t = some u) : c ∈ u := by
  obtain ⟨hdigit, -, -, -, hx, hX⟩ := h
  have not_zero : c ≠ '0' := (ne_of_hexDigit rfl hdigit).symm
  obtain rfl | rfl := (afterAnyPrefix_eq_some_iff ..).mp hprefix
  · simpa [not_zero, hx] using hmem
  · simpa [not_zero, hX] using hmem

section NoNumeral

variable {c : Char} (h : NoNumeralChar c) {t : List Char}
include h

theorem settledLine_eq_none_of_noNumeralChar (hmem : c ∈ t) : settledLine t = none :=
  settledLine_eq_none_of_mem h.1 hmem fun _ => h.mem_of_afterAnyPrefix hmem

theorem openText_eq_false_of_noNumeralChar (hmem : c ∈ trim t) : openText t = false := by
  have foreign := h
  obtain ⟨hdigit, hplus, hminus, hsep, -, -⟩ := h
  exact openText_eq_false_of_mem hdigit hsep hplus hminus hmem (fun _ => foreign.mem_of_afterAnyPrefix hmem)
    fun _ => foreign.mem_of_afterAnyPrefix (mem_afterSign hmem hplus hminus)

end NoNumeral

theorem hexLine_eq_none {t : List Char} (hsettled : settledLine t = none) (hopen : openText t = false) (p : HostParams) :
    hexLine p t = none := by
  rw [hexLine, hsettled, hopen]
  rfl

theorem parseAddress_eq_error {t : List Char} (hsettled : settledAddress t = none) (hopen : openPrefixed t = false)
    (p : HostParams) : parseAddress p t = .error .inputFormatError := by
  rw [parseAddress, hexAddress, hsettled, hopen]
  rfl

/-- A settled address is a settled line, with its `0x` (45_loader_and_cli.md R115). -/
theorem settledAddress_eq_none_of_settledLine {t : List Char} (h : settledLine t = none) : settledAddress t = none := by
  rw [settledAddress]
  cases hprefix : afterPrefix t with
  | none => rfl
  | some ds =>
    have prefixed : t ≠ [] := by
      rintro rfl
      cases hprefix
    rw [settledLine, if_neg prefixed, hprefix, Option.getD_some] at h
    simp [h]

/-- An open address is an open line, with a `0x` or `0X` (45_loader_and_cli.md R115). -/
theorem openPrefixed_eq_false_of_openText {t : List Char} (h : openText t = false) : openPrefixed t = false := by
  rw [openText, Bool.or_eq_false_iff] at h
  exact h.1

/-! A text has a `0x` or `0X` if a part of it has -/

theorem hasPrefix_iff (t : List Char) : HasPrefix t ↔ ['0', 'x'] <:+: t ∨ ['0', 'X'] <:+: t := by
  simp only [HasPrefix, List.IsInfix, exists_or, List.append_assoc, List.cons_append, List.nil_append, eq_comm]

theorem HasPrefix.of_isInfix {t t' : List Char} (h : HasPrefix t) (hpart : t <:+: t') : HasPrefix t' := by
  rw [hasPrefix_iff] at h ⊢
  exact h.imp (List.IsInfix.trans · hpart) (List.IsInfix.trans · hpart)

theorem hasPrefix_of_afterAnyPrefix {t u : List Char} (h : afterAnyPrefix t = some u) : HasPrefix t :=
  ⟨[], u, (afterAnyPrefix_eq_some_iff ..).mp h⟩

theorem afterSign_isSuffix (t : List Char) : afterSign t <:+ t := by
  fun_cases afterSign t with
  | case1 t => exact List.suffix_cons '+' t
  | case2 t => exact List.suffix_cons '-' t
  | case3 => exact List.suffix_rfl

/-- A text with neither `0x` nor `0X` in it is no address (45_loader_and_cli.md R115). -/
theorem parseAddress_of_not_hasPrefix {t : List Char} (h : ¬HasPrefix t) (p : HostParams) :
    parseAddress p t = .error .inputFormatError := by
  have no_prefix {t' : List Char} (hpart : t' <:+: t) : afterAnyPrefix t' = none :=
    Option.eq_none_iff_forall_ne_some.mpr fun u hu => h ((hasPrefix_of_afterAnyPrefix hu).of_isInfix hpart)
  refine parseAddress_eq_error ?_ ?_ p
  · have not_settled : afterPrefix t = none := Option.eq_none_iff_forall_ne_some.mpr fun u hu =>
      absurd ((no_prefix List.infix_rfl).symm.trans (afterAnyPrefix_of_afterPrefix hu)) nofun
    rw [settledAddress, not_settled]
  · rw [openPrefixed, no_prefix (trim_isInfix t), no_prefix ((afterSign_isSuffix _).isInfix.trans (trim_isInfix t))]
    rfl

/-! Characters after the first digits -/

/-- A run of digits, or a `0x` and a run of digits, begins with a digit. -/
theorem exists_leading_digit {pre u : List Char} (hlead : (pre = [] ∧ u ≠ []) ∨ pre = ['0', 'x'])
    (hdigits : ∀ d ∈ u, (hexDigit d).isSome) : ∃ x l, pre ++ u = x :: l ∧ (hexDigit x).isSome := by
  obtain ⟨rfl, hu⟩ | rfl := hlead
  · obtain ⟨x, l, rfl⟩ := List.exists_cons_of_ne_nil hu
    exact ⟨x, l, rfl, hdigits x List.mem_cons_self⟩
  · exact ⟨'0', 'x' :: u, rfl, rfl⟩

/-- An `x` after digits other than a single `0`, or after a `0x` and digits, is not that of a leading `0x`. -/
theorem mem_of_afterAnyPrefix_of_misplaced {pre u : List Char} (hlead : (pre = [] ∧ u ≠ [] ∧ u ≠ ['0']) ∨ pre = ['0', 'x'])
    (hdigits : ∀ d ∈ u, (hexDigit d).isSome) (c : Char) (w : List Char) {v : List Char}
    (h : afterAnyPrefix (pre ++ u ++ c :: w) = some v) : c ∈ v := by
  obtain ⟨rfl, hu, hzero⟩ | rfl := hlead
  · rw [afterAnyPrefix_eq_some_iff] at h
    match u, hu with
    | [d], _ =>
      have is_zero : d = '0' := by obtain h | h := h <;> exact (List.cons.inj h).1
      exact absurd (congrArg (fun d => [d]) is_zero) hzero
    | d :: e :: u, _ =>
      have he : (hexDigit e).isSome := hdigits e (by simp)
      obtain h | h := h
      · exact absurd (List.cons.inj (List.cons.inj h).2).1 (ne_of_hexDigit he rfl)
      · exact absurd (List.cons.inj (List.cons.inj h).2).1 (ne_of_hexDigit he rfl)
  · obtain rfl : u ++ c :: w = v := Option.some.inj h
    simp

/-- A line with a misplaced `x` or `X` is none (92_eei_decisions.md D24). -/
theorem hexLine_of_misplaced_x {pre u : List Char} (hlead : (pre = [] ∧ u ≠ [] ∧ u ≠ ['0']) ∨ pre = ['0', 'x'])
    (hdigits : ∀ d ∈ u, (hexDigit d).isSome) {c : Char} (hc : c = 'x' ∨ c = 'X') (w : List Char) (p : HostParams) :
    hexLine p (pre ++ u ++ c :: w) = none := by
  obtain ⟨x, l, hhead, hx⟩ := exists_leading_digit (hlead.imp_left fun ⟨hpre, hu, _⟩ => ⟨hpre, hu⟩) hdigits
  obtain ⟨hdigit, hspace, hsep, hplus, hminus⟩ :
      hexDigit c = none ∧ spaceChar c = false ∧ c ≠ '_' ∧ c ≠ '+' ∧ c ≠ '-' := by
    obtain rfl | rfl := hc <;> decide
  obtain ⟨w', htrim⟩ := trim_append_cons (spaceChar_of_hexDigit hx) hspace l w
  have after_prefix (w : List Char) {v : List Char} (h : afterAnyPrefix (x :: l ++ c :: w) = some v) : c ∈ v := by
    rw [← hhead] at h
    exact mem_of_afterAnyPrefix_of_misplaced hlead hdigits c w h
  rw [hhead]
  refine hexLine_eq_none (settledLine_eq_none_of_mem hdigit (by simp) fun _ => after_prefix w) ?_ p
  refine openText_eq_false_of_mem hdigit hsep hplus hminus ?_ ?_ ?_ <;> rw [htrim]
  · simp
  · exact fun _ => after_prefix w'
  · rw [List.cons_append, afterSign_of_digit hx]
    exact fun _ => after_prefix w'

/-- A line with white space after its first digits and before its last character is none (92_eei_decisions.md D24). -/
theorem hexLine_of_inner_space {pre u : List Char} (hlead : (pre = [] ∧ u ≠ []) ∨ pre = ['0', 'x'])
    (hdigits : ∀ d ∈ u, (hexDigit d).isSome) {c d : Char} (hc : spaceChar c = true) (hd : spaceChar d = false)
    (w : List Char) (p : HostParams) : hexLine p (pre ++ u ++ c :: w ++ [d]) = none := by
  obtain ⟨x, l, hhead, hx⟩ := exists_leading_digit hlead hdigits
  have foreign := noNumeralChar_of_spaceChar hc
  obtain ⟨w', htrim⟩ : ∃ w', trim (x :: (l ++ c :: w) ++ [d]) = x :: (l ++ c :: w) ++ d :: w' :=
    trim_append_cons (spaceChar_of_hexDigit hx) hd _ _
  rw [hhead, List.cons_append]
  refine hexLine_eq_none (settledLine_eq_none_of_noNumeralChar foreign (by simp)) (openText_eq_false_of_noNumeralChar foreign ?_) p
  rw [htrim]
  simp

/-! Digits -/

/-- Digits alone do not begin with `0x`, since `x` is none. -/
theorem afterPrefix_of_digits {h : List Char} (hdigits : ∀ c ∈ h, (hexDigit c).isSome) : afterPrefix h = none :=
  Option.eq_none_iff_forall_ne_some.mpr fun ds hds => by
    obtain rfl := (afterPrefix_eq_some_iff ..).mp hds
    exact ne_of_hexDigit (hdigits 'x' (by simp)) rfl rfl

/-- Where digits have a value, a line of them, with or without `0x`, and an address of them have it. -/
theorem hexLine_and_parseAddress_of_digits {h : List Char} (hne : h ≠ []) (hdigits : ∀ c ∈ h, (hexDigit c).isSome) {v : Addr}
    (hvalue : hexValue h = some v) (p : HostParams) :
    hexLine p h = some v ∧ hexLine p ('0' :: 'x' :: h) = some v ∧ parseAddress p ('0' :: 'x' :: h) = .ok v := by
  have settled_line : settledLine h = some v := by
    rw [settledLine, if_neg hne, afterPrefix_of_digits hdigits, Option.getD_none, hvalue]
  have settled_prefixed : settledLine ('0' :: 'x' :: h) = some v := hvalue
  have settled_address : settledAddress ('0' :: 'x' :: h) = some v := (if_neg hne).trans hvalue
  refine ⟨by rw [hexLine, settled_line], by rw [hexLine, settled_prefixed], by rw [parseAddress, hexAddress, settled_address]⟩

/-- Settles O57: digits have their value; any other line or address that the statement names has a character that neither
a settled text nor an open shape can hold where it stands, or has no `0x`. -/
theorem hexTextsTheSpecSettles : Obligations.HexTextsTheSpecSettles := by
  intro p
  refine ⟨fun h ds hne hlength hdigits => ?digits, rfl, fun t hbad => ?bad,
    fun pre u w c hlead hdigits hc => hexLine_of_misplaced_x hlead hdigits hc w p,
    fun pre u w c d hlead hdigits hc hd => hexLine_of_inner_space hlead hdigits hc hd w p,
    fun t hprefix => parseAddress_of_not_hasPrefix hprefix p⟩
  case digits =>
    obtain ⟨v, hvalue, hfold⟩ := hexValue_of_digits hlength hdigits
    have each_digit (c : Char) (hc : c ∈ h) : (hexDigit c).isSome := by
      have in_map : hexDigit c ∈ ds.map some := hdigits ▸ List.mem_map_of_mem hc
      obtain ⟨d, -, hd⟩ := List.mem_map.mp in_map
      simp [← hd]
    obtain ⟨hline, hprefixed, haddress⟩ := hexLine_and_parseAddress_of_digits hne each_digit hvalue p
    exact ⟨v, hline, hprefixed, haddress, hfold⟩
  case bad =>
    obtain ⟨c, hmem, hbad⟩ := List.any_eq_true.mp hbad
    obtain ⟨foreign, hspace⟩ := (badChar_iff c).mp hbad
    have settled := settledLine_eq_none_of_noNumeralChar foreign hmem
    have closed := openText_eq_false_of_noNumeralChar foreign (mem_trim hmem hspace)
    exact ⟨hexLine_eq_none settled closed p,
      parseAddress_eq_error (settledAddress_eq_none_of_settledLine settled) (openPrefixed_eq_false_of_openText closed) p⟩

end Sys2Proof.Machine

end
